-- ==== Sys2Proof/Word.lean ====
section
/-!
DEFINITION. The two bit-vector widths of FRAMER: a frame byte (00_scope.md R8, BYTE_BITS = 8) and a host
register word (R8, REG_BITS = 32). Bit 0 is the least significant bit (R9).
-/

namespace Sys2Proof

/-- A byte of a frame, of a buffer or of the TX stream: 0 to 255 (00_scope.md R8, R9). -/
abbrev Byte := BitVec 8

/-- A host register word (00_scope.md R8: REG_BITS = 32). -/
abbrev Word := BitVec 32

/-- A byte offset of the host register space, 0x00 to 0xFF (20_memory.md R50). -/
abbrev Offset := BitVec 8

/-- An operation code, the field OP of the CMD word and of STATUS.LASTOP (30_encoding.md R81). -/
abbrev Opcode := BitVec 4

/-- The 64-bit encoding of an IEEE 754 binary64 value, the `bits64` of 00_scope.md R13. -/
abbrev Bits64 := BitVec 64

end Sys2Proof
end

