-- ==== Sys2Proof/Syntax.lean ====
section
/-!
DEFINITION. The instructions: one constructor per row of spec/opcode_table.json (sixteen CMD values, four RXD
forms, three outcomes of the response-layout selector), the host-visible register names, and the abstract syntax
of the host's program (30_encoding.md R99, R100).
-/

namespace Sys2Proof

/-- The formats FRAMER decodes (30_encoding.md R80). The fourth of R80, the request frame, is produced and not
decoded. Which one applies is decided by where the bits arrive and not by the bits. -/
inductive Format where
  /-- A 32-bit word written to register CMD (R81). -/
  | cmd
  /-- A 32-bit word written to register RXD (R84). -/
  | rxd
  /-- A response frame, the buffer of a PARSE (R91). -/
  | response
  deriving DecidableEq, Repr

/-- The instructions of FRAMER, one per row of spec/opcode_table.json. Ignored bits (CMD 31:4, RXD 31:10) are not
operands. The operands a row takes from State (RPM_L and RPM_R, the RX buffer) are not in the word either. -/
inductive Instr where
  /-- ENC_INIT, OP = 0x1 (41_framer.md R138). -/
  | encInit
  /-- STATUS_POLL, OP = 0x2 (41_framer.md R139). -/
  | statusPoll
  /-- RPM_SET, OP = 0x3 (41_framer.md R140). -/
  | rpmSet
  /-- PARSE, OP = 0x4 (42_demux.md R176). -/
  | parse
  /-- CKSUM, OP = 0x5 (40_checksum.md R116). -/
  | cksum
  /-- RESERVED_0x0, OP = 0x0 (60_exceptions.md R203). -/
  | reserved0
  /-- RESERVED_0x6 (60_exceptions.md R203). -/
  | reserved6
  /-- RESERVED_0x7 (60_exceptions.md R203). -/
  | reserved7
  /-- RESERVED_0x8 (60_exceptions.md R203). -/
  | reserved8
  /-- RESERVED_0x9 (60_exceptions.md R203). -/
  | reserved9
  /-- RESERVED_0xA (60_exceptions.md R203). -/
  | reservedA
  /-- RESERVED_0xB (60_exceptions.md R203). -/
  | reservedB
  /-- RESERVED_0xC (60_exceptions.md R203). -/
  | reservedC
  /-- RESERVED_0xD (60_exceptions.md R203). -/
  | reservedD
  /-- RESERVED_0xE (60_exceptions.md R203). -/
  | reservedE
  /-- RESERVED_0xF (60_exceptions.md R203). -/
  | reservedF
  /-- RXD_BYTE, NODATA = 0 and LAST = 0 (30_encoding.md R85). -/
  | rxdByte (data : Byte)
  /-- RXD_LAST, NODATA = 0 and LAST = 1 (30_encoding.md R85). -/
  | rxdLast (data : Byte)
  /-- RXD_END, NODATA = 1 and LAST = 1 (30_encoding.md R85); DATA is carried and not used. -/
  | rxdEnd (data : Byte)
  /-- RXD_NOP, NODATA = 1 and LAST = 0 (30_encoding.md R85); DATA is carried and not used. -/
  | rxdNop (data : Byte)
  /-- RESP_L14: the declared-length byte of the buffered response is 14 (30_encoding.md R94). -/
  | respL14
  /-- RESP_L16: the declared-length byte of the buffered response is 16 (30_encoding.md R94). -/
  | respL16
  /-- RESP_UNKNOWN: the declared-length byte is any other value, carried here (30_encoding.md R94). -/
  | respUnknown (declaredLength : Byte)
  deriving DecidableEq, Repr

/-- The outcomes of the layout selector on the declared-length byte (30_encoding.md R94). -/
inductive Selector where
  /-- The byte is 14: the 14-byte layout. -/
  | l14
  /-- The byte is 16: the 16-byte layout. -/
  | l16
  /-- The byte is neither: no layout. -/
  | unknown (declaredLength : Byte)
  deriving DecidableEq, Repr

/-- The 21 host-visible registers (10_state.md R26), in the order of their offsets (20_memory.md R53). -/
inductive Reg where
  | cmd | status | errArg | cfg | rpmL | rpmR | rxd | ckRes
  | m1Rpm | m1Stat | m1Pos | m2Rpm | m2Stat | m2Pos
  | io1 | io2 | io1Flags
  | m1RotLo | m1RotHi | m2RotLo | m2RotHi
  deriving DecidableEq, Repr

/-- A label of a host program (30_encoding.md R100), named by a number. -/
abbrev Label := Nat

/-- The statements of a host program (30_encoding.md R99, R100): the two basic statements, the five command
mnemonics and the pseudo-instructions. -/
inductive HostStmt where
  /-- `RD <reg>`. -/
  | rd (r : Reg)
  /-- `WR <reg>, <imm>`. -/
  | wr (r : Reg) (imm : Int)
  /-- `ENC_INIT`. -/
  | encInit
  /-- `STATUS_POLL`. -/
  | statusPoll
  /-- `RPM_SET`. -/
  | rpmSet
  /-- `PARSE`. -/
  | parse
  /-- `CKSUM`. -/
  | cksum
  /-- `SETRPM l, r`. -/
  | setRpm (l r : Int)
  /-- `STRICT 1` and `STRICT 0`. -/
  | strict (on : Bool)
  /-- `RXB b`. -/
  | rxb (b : Byte)
  /-- `RXL b`. -/
  | rxl (b : Byte)
  /-- `RXEND`. -/
  | rxEnd
  /-- `FEED b0, ..., bk`. -/
  | feed (bytes : List Byte)
  /-- `POLL`. -/
  | poll
  /-- `CLRIGN`. -/
  | clrIgn
  /-- `<label>:`. -/
  | label (l : Label)
  /-- `IFBIT <reg>, <k>, <v>, <label>`. -/
  | ifBit (r : Reg) (k : Fin 32) (v : Bool) (l : Label)
  deriving DecidableEq, Repr

/-- What the host does in one turn: one bus transaction (30_encoding.md R101), after which the host's own program
counter moves on. The branch target is a position of the assembled program. -/
inductive HostOp where
  /-- `RegRead(off)`, the transaction (R, off, -). -/
  | rd (off : Offset)
  /-- `RegWrite(off, v)`, the transaction (W, off, v). -/
  | wr (off : Offset) (v : Word)
  /-- One `RD STATUS` of a POLL, which stays here while bit 0 of the value read is 1. -/
  | poll
  /-- The `RD` of an IFBIT and its branch. -/
  | ifBit (off : Offset) (k : Fin 32) (v : Bool) (target : Nat)
  deriving DecidableEq, Repr

end Sys2Proof
end

