-- ==== Sys2Proof/WellFormed.lean ====
section
/-!
DEFINITION. The checks a term of the syntax must pass: an instruction that some bits encode, a host statement that
30_encoding.md R99 and R100 allow, and a host program whose labels can be resolved.
-/

namespace Sys2Proof

/-- A RESP_UNKNOWN carries a byte that selects no layout (30_encoding.md R94); every other instruction is well
formed with any operand. -/
def Instr.wf : Instr → Bool
  | .respUnknown n => n != 14#8 && n != 16#8
  | .encInit | .statusPoll | .rpmSet | .parse | .cksum => true
  | .reserved0 | .reserved6 | .reserved7 | .reserved8 | .reserved9 | .reservedA | .reservedB
  | .reservedC | .reservedD | .reservedE | .reservedF => true
  | .rxdByte _ | .rxdLast _ | .rxdEnd _ | .rxdNop _ => true
  | .respL14 | .respL16 => true

/-- An immediate of R99: a negative integer that has a 32-bit two's complement, or a number below 2^32. -/
def immOk (v : Int) : Bool := decide (-2147483648 ≤ v) && decide (v < 4294967296)

/-- The statement is one that R99 and R100 allow: immediates in range, and at least one byte in a FEED. -/
def HostStmt.wf : HostStmt → Bool
  | .wr _ imm => immOk imm
  | .setRpm l r => immOk l && immOk r
  | .feed bytes => !bytes.isEmpty
  | .rd _ | .encInit | .statusPoll | .rpmSet | .parse | .cksum | .strict _ | .rxb _ | .rxl _ | .rxEnd
  | .poll | .clrIgn | .label _ | .ifBit _ _ _ _ => true

/-- How often a label is set in a program. -/
def labelCount (prog : List HostStmt) (l : Label) : Nat :=
  prog.countP fun st => st == .label l

/-- Every statement is well formed and every branch names a label that is set exactly once (R100). -/
def programWf (prog : List HostStmt) : Bool :=
  prog.all fun st =>
    st.wf && match st with
      | .ifBit _ _ _ l => labelCount prog l == 1
      | _ => true

end Sys2Proof
end

