-- ==== Sys2Proof/Decode.lean ====
section
/-!
DEFINITION. From bits to instructions and back: the CMD word (30_encoding.md R81 to R83), the RXD word (R84, R85),
the layout selector of a response frame (R91, R94), the byte lanes of a register word (20_memory.md R56), the
encoder, and the word of an opcode-table row.
-/

namespace Sys2Proof

/-! ## Register words and byte lanes -/

/-- The four byte lanes of a register word, lane 0 first: lane k carries bits 8k+7 to 8k (20_memory.md R56). -/
def lanes (v : Word) : List Byte :=
  [v.extractLsb' 0 8, v.extractLsb' 8 8, v.extractLsb' 16 8, v.extractLsb' 24 8]

/-- The register word whose lanes 0 to 3 are these bytes (20_memory.md R56). -/
def wordOfLanes (b0 b1 b2 b3 : Byte) : Word := b3 ++ b2 ++ b1 ++ b0

/-! ## Fields -/

/-- OP, bits 3:0 of the CMD word (30_encoding.md R81). -/
def cmdOp (v : Word) : Opcode := v.extractLsb' 0 4

/-- DATA, bits 7:0 of the RXD word (30_encoding.md R84). -/
def rxdDataField (v : Word) : Byte := v.extractLsb' 0 8

/-- LAST, bit 8 of the RXD word (30_encoding.md R84). -/
def rxdLastField (v : Word) : Bool := v.getLsbD 8

/-- NODATA, bit 9 of the RXD word (30_encoding.md R84). -/
def rxdNodataField (v : Word) : Bool := v.getLsbD 9

/-! ## Decoding -/

/-- The opcode map of 30_encoding.md R82; the last pattern is met by 0xF alone, the field having four bits. -/
def decodeOp (op : Opcode) : Instr :=
  match op.toNat with
  | 0 => .reserved0
  | 1 => .encInit
  | 2 => .statusPoll
  | 3 => .rpmSet
  | 4 => .parse
  | 5 => .cksum
  | 6 => .reserved6
  | 7 => .reserved7
  | 8 => .reserved8
  | 9 => .reserved9
  | 10 => .reservedA
  | 11 => .reservedB
  | 12 => .reservedC
  | 13 => .reservedD
  | 14 => .reservedE
  | _ => .reservedF

/-- The decoding of a CMD word: bits 31:4 are ignored (30_encoding.md R81, R83). -/
def decodeCmd (v : Word) : Instr := decodeOp (cmdOp v)

/-- The decoding of an RXD word: the four forms of 30_encoding.md R85; bits 31:10 are ignored (R84). -/
def decodeRxd (v : Word) : Instr :=
  match rxdNodataField v, rxdLastField v with
  | false, false => .rxdByte (rxdDataField v)
  | false, true => .rxdLast (rxdDataField v)
  | true, true => .rxdEnd (rxdDataField v)
  | true, false => .rxdNop (rxdDataField v)

/-- The layout selector (30_encoding.md R94). -/
def selectLayout (declaredLength : Byte) : Selector :=
  if declaredLength = 14#8 then .l14
  else if declaredLength = 16#8 then .l16
  else .unknown declaredLength

/-- The opcode-table row of a selector outcome. -/
def Selector.toInstr : Selector → Instr
  | .l14 => .respL14
  | .l16 => .respL16
  | .unknown n => .respUnknown n

/-- The declared-length byte of a response buffer, its byte 4 (30_encoding.md R91); none when the buffer has fewer
than five bytes (42_demux.md R161). -/
def declaredLength? (d : List Byte) : Option Byte := d[4]?

/-- The instruction that a write of `v` to register `r` carries: the CMD and RXD words only (20_memory.md R52). -/
def decodeWrite (r : Reg) (v : Word) : Option Instr :=
  match r with
  | .cmd => some (decodeCmd v)
  | .rxd => some (decodeRxd v)
  | _ => none

/-- Why bytes are no instruction. -/
inductive Reject where
  /-- A CMD or RXD word has four byte lanes; there are no narrower or wider accesses (20_memory.md R55). Safe: no
  such access exists. -/
  | notAWord
  /-- A response buffer of fewer than five bytes has no declared-length byte (42_demux.md R161). Safe: PARSE still
  gives that buffer its outcome, TRUNCATED_FRAME. -/
  | noDeclaredLength
  deriving DecidableEq, Repr

/-- The decoder, total on any bytes: a CMD or RXD word is its four lanes, a response frame is the whole buffer. -/
def decode (f : Format) (bytes : List Byte) : Except Reject Instr :=
  match f with
  | .cmd =>
    match bytes with
    | [b0, b1, b2, b3] => .ok (decodeCmd (wordOfLanes b0 b1 b2 b3))
    | _ => .error .notAWord
  | .rxd =>
    match bytes with
    | [b0, b1, b2, b3] => .ok (decodeRxd (wordOfLanes b0 b1 b2 b3))
    | _ => .error .notAWord
  | .response =>
    match declaredLength? bytes with
    | some n => .ok (selectLayout n).toInstr
    | none => .error .noDeclaredLength

/-! ## Encoding -/

/-- The format an instruction is carried in (30_encoding.md R80). -/
def Instr.format : Instr → Format
  | .encInit | .statusPoll | .rpmSet | .parse | .cksum => .cmd
  | .reserved0 | .reserved6 | .reserved7 | .reserved8 | .reserved9 | .reservedA | .reservedB
  | .reservedC | .reservedD | .reservedE | .reservedF => .cmd
  | .rxdByte _ | .rxdLast _ | .rxdEnd _ | .rxdNop _ => .rxd
  | .respL14 | .respL16 | .respUnknown _ => .response

/-- The CMD word of an operation code: software writes 0 to the ignored bits (30_encoding.md R81). -/
def cmdWord (op : Opcode) : Word := op.setWidth 32

/-- The RXD word with these fields: software writes 0 to the ignored bits (30_encoding.md R84). -/
def rxdWord (nodata last : Bool) (data : Byte) : Word :=
  0#22 ++ BitVec.ofBool nodata ++ BitVec.ofBool last ++ data

/-- The value of the row's own word: the CMD or RXD word, or the declared-length byte. -/
def encodeWord : Instr → Word
  | .encInit => cmdWord 0x1
  | .statusPoll => cmdWord 0x2
  | .rpmSet => cmdWord 0x3
  | .parse => cmdWord 0x4
  | .cksum => cmdWord 0x5
  | .reserved0 => cmdWord 0x0
  | .reserved6 => cmdWord 0x6
  | .reserved7 => cmdWord 0x7
  | .reserved8 => cmdWord 0x8
  | .reserved9 => cmdWord 0x9
  | .reservedA => cmdWord 0xA
  | .reservedB => cmdWord 0xB
  | .reservedC => cmdWord 0xC
  | .reservedD => cmdWord 0xD
  | .reservedE => cmdWord 0xE
  | .reservedF => cmdWord 0xF
  | .rxdByte data => rxdWord false false data
  | .rxdLast data => rxdWord false true data
  | .rxdEnd data => rxdWord true true data
  | .rxdNop data => rxdWord true false data
  | .respL14 => 14#32
  | .respL16 => 16#32
  | .respUnknown n => n.setWidth 32

/-- The bytes of a well-formed instruction: the lanes of its word, or a response frame up to its declared-length
byte, whose header bytes 0 to 3 are not read and are written as 0 (30_encoding.md R91, 42_demux.md R173; DESIGN CHOICE,
notes/assumptions/13.md). -/
def encode (i : Instr) : List Byte :=
  match i.format with
  | .cmd | .rxd => lanes (encodeWord i)
  | .response => [0#8, 0#8, 0#8, 0#8, (encodeWord i).extractLsb' 0 8]

/-! ## The opcode table's words

A table word does not say in which format it is: 1 is ENC_INIT when written to CMD and RXD_BYTE of 0x01 when written
to RXD. `tableFormat` says which reading is taken for the host's question (DESIGN CHOICE, notes/assumptions/3.md). -/

/-- The format taken for a table word of `nbits` bits. A row with no fixed bit is the selector's catch-all. An
8-bit word is a declared-length byte if it is 14 or 16 and the low byte of a CMD word otherwise. A 9- to 16-bit word
reaches RXD's bits 9:8 and is an RXD word. In 32 bits a value below 16 is a CMD word and any other an RXD word. -/
def tableFormat (nbits w : Nat) : Option Format :=
  if nbits = 0 then some .response
  else if nbits ≤ 8 then
    if w % 256 = 14 ∨ w % 256 = 16 then some .response else some .cmd
  else if nbits ≤ 16 then some .rxd
  else if nbits ≤ 32 then
    if w < 16 then some .cmd else some .rxd
  else none

/-- The response buffer that stands for a table word: 24 bytes, the length of the longest layout, all 0 but for the
declared-length byte. -/
def tableFrame (w : Nat) : List Byte :=
  [0#8, 0#8, 0#8, 0#8, BitVec.ofNat 8 w] ++ List.replicate 19 0#8

/-- The bytes of a table word as the decoder is given them. -/
def tableBytes (f : Format) (w : Nat) : List Byte :=
  match f with
  | .cmd | .rxd => lanes (BitVec.ofNat 32 w)
  | .response => tableFrame w

/-- The instruction the decoder reads from an opcode-table word. -/
def decodeTableWord (nbits w : Nat) : Option Instr :=
  match tableFormat nbits w with
  | none => none
  | some f => (decode f (tableBytes f w)).toOption

end Sys2Proof
end

