-- ==== Sys2Proof/Machine/State.lean ====
section
/-!
DEFINITION. The state of the machine: every piece of state 10_state.md gives FRAMER (R22 to R40, reset R48), and
beside it `env`, the model's own record of the two agents outside FRAMER (the host with its program, the transport)
and of the order in which the agents move. All of it is plain data.
-/

namespace Sys2Proof.Machine

/-- The sequencer state of 10_state.md R22. -/
inductive Phase where
  /-- No operation is in progress and a command can be accepted. -/
  | idle
  /-- A request frame is being emitted on the TX port. -/
  | tx
  /-- A PARSE or CKSUM is collecting its buffer from RXD writes. -/
  | rx
  /-- An outcome has been computed and waits for the retire step. -/
  | fin
  deriving DecidableEq, Repr

/-- What the RX buffer is being collected for (10_state.md R24). -/
inductive RxMode where
  | none | parse | cksum
  deriving DecidableEq, Repr

/-- The error kinds that FRAMER produces (30_encoding.md R90, 60_exceptions.md R204). -/
inductive ErrCode where
  | invalidRpmRange | unknownLayout | truncatedFrame | checksumMismatch | illegalCommand
  deriving DecidableEq, Repr

/-- One motor channel of a response: the MotorTelemetry record of 10_state.md R40. The rpm and the position are
two's-complement patterns, read signed; `rot` is the wheel rotation's binary64 encoding. -/
structure MotorTelemetry where
  rpm : BitVec 16
  status : Byte
  position : BitVec 32
  rot : Bits64
  deriving DecidableEq, Repr

/-- The seven flags of motor 1's I/O word (10_state.md R45, 42_demux.md R169). -/
structure IoFlags where
  intSpeed : Bool
  alarmReset : Bool
  dir : Bool
  runBrake : Bool
  startStop : Bool
  encB : Bool
  encA : Bool
  deriving DecidableEq, Repr

/-- The layout of a parse result with what only that layout holds (10_state.md R40): a 16-byte layout also has
the two raw I/O words and motor 1's flags. -/
inductive LayoutData where
  | l14
  | l16 (io1 io2 : BitVec 16) (flags1 : IoFlags)
  deriving DecidableEq, Repr

/-- One parse result (10_state.md R40). -/
structure Telemetry where
  layout : LayoutData
  m1 : MotorTelemetry
  m2 : MotorTelemetry
  deriving DecidableEq, Repr

/-- The value of a successful outcome (00_scope.md R12): the token of a build command, a parse result or a
checksum. -/
inductive OkValue where
  | sent
  | telemetry (t : Telemetry)
  | checksum (ck : Byte)
  deriving DecidableEq, Repr

/-- An operation's result: `Ok(x)` or `Err(code, arg)` (00_scope.md R12, 60_exceptions.md R200). -/
inductive Result where
  | ok (x : OkValue)
  | err (code : ErrCode) (arg : Word)
  deriving DecidableEq, Repr

/-- The pending outcome `(op, result)` of 10_state.md R25. -/
structure Pending where
  op : Opcode
  result : Result
  deriving DecidableEq, Repr

/-- Who takes a step (00_scope.md R16, 20_memory.md R67); the environment's one step is reset (R230). -/
inductive Agent where
  | host | transport | framer | environment
  deriving DecidableEq, Repr

/-- The MODEL's own state, not FRAMER's (DESIGN CHOICE, notes/assumptions/1.md says when it is unsafe): the agents
outside FRAMER, and what was seen of FRAMER from there. FRAMER's own steps neither read nor write it, but for the transfer record and the value a read
returns. -/
structure Env where
  /-- Who moves next, first move first; when it is empty the eager order of `State.nextAgent` applies. -/
  sched : List Agent
  /-- The host's program, assembled (30_encoding.md R99 to R101). -/
  prog : List HostOp
  /-- The host's own program counter, outside FRAMER (10_state.md R21). -/
  hpc : Nat
  /-- Every read the host has made, oldest first: the offset and the value returned. -/
  reads : List (Offset × Word)
  /-- Every byte the transport has taken with its TX_LAST mark, oldest first (20_memory.md R58). -/
  sent : List (Byte × Bool)
  deriving DecidableEq, Repr

/-- The machine. -/
structure State where
  /-- `phase` (10_state.md R22). -/
  phase : Phase
  /-- `txbuf`, the request frame being emitted (10_state.md R23). -/
  txbuf : List Byte
  /-- `txidx`, the index of the next byte to emit (10_state.md R23). -/
  txidx : Nat
  /-- `rxmode` (10_state.md R24). -/
  rxmode : RxMode
  /-- `rxbuf`, the buffer received so far, of any length (10_state.md R24). -/
  rxbuf : List Byte
  /-- `vck`, CFG.VERIFY_CK as latched when a PARSE was accepted (10_state.md R24). -/
  vck : Bool
  /-- `pend`, the pending outcome (10_state.md R25). -/
  pend : Option Pending
  /-- CFG (10_state.md R28). -/
  cfg : Word
  /-- RPM_L (10_state.md R29). -/
  rpmL : Word
  /-- RPM_R (10_state.md R29). -/
  rpmR : Word
  /-- STATUS.DONE (10_state.md R33). -/
  done : Bool
  /-- STATUS.ERR (10_state.md R34). -/
  err : Bool
  /-- STATUS.ERRCODE (10_state.md R34). -/
  errcode : BitVec 4
  /-- STATUS.IGN (10_state.md R35). -/
  ign : Bool
  /-- STATUS.LASTOP (10_state.md R37). -/
  lastop : Opcode
  /-- ERRARG (10_state.md R38). -/
  errarg : Word
  /-- CKRES (10_state.md R39). -/
  ckres : Byte
  /-- The telemetry held, or none (10_state.md R40). -/
  tel : Option Telemetry
  /-- The agents outside FRAMER: the model's own. -/
  env : Env
  deriving DecidableEq, Repr

/-- The state after reset (10_state.md R48). That `env` is empty, no program loaded, nothing read or sent, is a DESIGN
CHOICE and unsafe (notes/assumptions/11.md). -/
def State.reset : State where
  phase := .idle
  txbuf := []
  txidx := 0
  rxmode := .none
  rxbuf := []
  vck := false
  pend := none
  cfg := 0
  rpmL := 0
  rpmR := 0
  done := false
  err := false
  errcode := 0
  ign := false
  lastop := 0
  errarg := 0
  ckres := 0
  tel := none
  env := { sched := [], prog := [], hpc := 0, reads := [], sent := [] }

/-- Why a step stops. FRAMER itself never stops (60_exceptions.md R200, R215): the two cases are combinations of
fields that 10_state.md rules out, and Safety.lean's invariant excludes them. DEDUCED, safe (notes/assumptions/5.md).
-/
inductive Fault where
  /-- Raised by a TX transfer in phase TX when `txidx` is not the index of a byte of `txbuf`; R23 and R58 give the
  port no byte then. Safe: no run from reset reaches it. -/
  | noByteToOffer
  /-- Raised by the retire step in phase FIN when there is no pending outcome, or when a PARSE's or CKSUM's
  successful outcome carries no value of its kind; R25 and R242 rule that out. Safe: no run from reset reaches it. -/
  | malformedOutcome
  deriving DecidableEq, Repr

/-- Why an instruction has no meaning. -/
inductive Refusal where
  /-- Raised by an arm of `exec` for an instruction that has no meaning yet; no arm of this model does. Safe. -/
  | notModelled (mnemonic : String)
  deriving DecidableEq, Repr

/-- The outcome of a step of this machine. -/
abbrev Outcome := Host.Outcome State Fault Refusal

end Sys2Proof.Machine
end

