-- ==== Sys2Proof/Machine/Flags.lean ====
section
/-!
DEFINITION. STATUS and the other flag words: what each field is computed from (10_state.md R31 to R37, R45), the
numbers of the error codes (30_encoding.md R90) and the flags of an I/O word (42_demux.md R169).
-/

namespace Sys2Proof.Machine

/-- STATUS.BUSY, computed from `phase` at each read (10_state.md R32). -/
def State.busy (s : State) : Bool := s.phase != .idle

/-- STATUS.LAYOUT (10_state.md R36). -/
def State.layoutField (s : State) : BitVec 2 :=
  match s.tel with
  | none => 0
  | some t =>
    match t.layout with
    | .l14 => 1
    | .l16 _ _ _ => 2

/-- STATUS as read (10_state.md R31): LASTOP 15:12, LAYOUT 9:8, ERRCODE 7:4, IGN 3, ERR 2, DONE 1, BUSY 0. -/
def State.statusWord (s : State) : Word :=
  0#16 ++ s.lastop ++ 0#2 ++ s.layoutField ++ s.errcode ++ BitVec.ofBool s.ign ++ BitVec.ofBool s.err
    ++ BitVec.ofBool s.done ++ BitVec.ofBool s.busy

/-- The number of an error code (30_encoding.md R90). -/
def ErrCode.code : ErrCode → BitVec 4
  | .invalidRpmRange => 1
  | .unknownLayout => 2
  | .truncatedFrame => 3
  | .checksumMismatch => 4
  | .illegalCommand => 5

/-- The bit-field decoder: the low seven bits of motor 1's I/O word (42_demux.md R169). -/
def decodeIoFlags (w : BitVec 16) : IoFlags where
  intSpeed := w.getLsbD 0
  alarmReset := w.getLsbD 1
  dir := w.getLsbD 2
  runBrake := w.getLsbD 3
  startStop := w.getLsbD 4
  encB := w.getLsbD 5
  encA := w.getLsbD 6

/-- IO1_FLAGS: each flag at its bit, bits 31:7 are 0 (10_state.md R45). -/
def IoFlags.word (f : IoFlags) : Word :=
  0#25 ++ BitVec.ofBool f.encA ++ BitVec.ofBool f.encB ++ BitVec.ofBool f.startStop ++ BitVec.ofBool f.runBrake
    ++ BitVec.ofBool f.dir ++ BitVec.ofBool f.alarmReset ++ BitVec.ofBool f.intSpeed

end Sys2Proof.Machine
end

