-- ==== Sys2Proof/Config.lean ====
section
/-!
DEFINITION. The parameters of 00_scope.md R8 that have a value there, and the one value IEEE 754 leaves open (the
bits of a NaN), which is a free value. RX_SAT is an argument of the bounded receiver (Machine/Bounded.lean), as R8
asks for an OPEN parameter; the other OPEN parameter, latency, has no place in an untimed model (R245).
-/

namespace Sys2Proof.Config

/-- RPM_MIN of 00_scope.md R8: the least setpoint RPM_SET accepts. -/
def rpmMin : Int := -32768

/-- RPM_MAX of 00_scope.md R8: the greatest setpoint RPM_SET accepts. -/
def rpmMax : Int := 32767

/-- ENC_COUNTS of 00_scope.md R8: encoder counts per revolution. -/
def encCounts : Nat := 6535

/-- GEAR_RATIO of 00_scope.md R8: the extra divisor of the 14-byte layout. -/
def gearRatio : Nat := 100

/-- L14_NEED of 00_scope.md R8: the payload bytes the 14-byte layout consumes. -/
def l14Need : Nat := 14

/-- L16_NEED of 00_scope.md R8 and 90_conflicts.md C3: the payload bytes the 16-byte layout consumes. -/
def l16Need : Nat := 18

/-- FREE VALUE (notes/assumptions/7.md): the sign and the payload bits of the NaN that a binary64 division of these
two operands gives. IEEE 754 does not fix them and 42_demux.md R172 says that no rule of FRAMER reaches a NaN. -/
opaque nanBits : Bits64 → Bits64 → Bits64

end Sys2Proof.Config
end

