-- ==== Sys2Proof/Machine/Binary64.lean ====
section
/-!
DEFINITION. The floating-point primitives of 00_scope.md R13: `to_f64` and `fdiv64`, IEEE 754 binary64 with
roundTiesToEven, computed exactly on integers. The encoding of a binary64 value and the special cases of division are
IEEE 754's, which the spec names and does not reprint: PRESUMED (notes/assumptions/8.md).

Every finite binary64 value is a whole multiple of 2^-1074. `mag x` is that multiple, so the quotient of two finite
values is the quotient of two natural numbers, and rounding happens once, in `roundDiv`.
-/

namespace Sys2Proof.Machine.Binary64

/-- One is this many units of 2^-1074. Irreducible, so that no tactic tries to write the number out. -/
@[irreducible] def scale : Nat := 2 ^ 1074

/-- The sign bit. -/
def sign (x : Bits64) : Bool := x.getLsbD 63

/-- The biased exponent, bits 62:52. -/
def expo (x : Bits64) : Nat := (x.extractLsb' 52 11).toNat

/-- The fraction, bits 51:0. -/
def frac (x : Bits64) : Nat := (x.extractLsb' 0 52).toNat

/-- Not an infinity and not a NaN. -/
def isFinite (x : Bits64) : Bool := expo x != 2047

/-- A NaN: the greatest exponent and a fraction that is not 0. -/
def isNaN (x : Bits64) : Bool := expo x == 2047 && frac x != 0

/-- An infinity: the greatest exponent and fraction 0. -/
def isInf (x : Bits64) : Bool := expo x == 2047 && frac x == 0

/-- The magnitude of a finite value in units of 2^-1074: a subnormal or zero is its fraction, a normal value is
(2^52 + fraction) shifted by its exponent less one. -/
def mag (x : Bits64) : Nat :=
  if expo x = 0 then frac x else (2 ^ 52 + frac x) * 2 ^ (expo x - 1)

/-- The real value of a finite binary64, as a rational number. -/
def value (x : Bits64) : ℚ :=
  (if sign x then -1 else 1) * (mag x : ℚ) / (scale : ℚ)

/-- `n / d` rounded to the nearest natural number, ties to the even one. -/
def roundDiv (n d : Nat) : Nat :=
  let q := n / d
  let r := n % d
  if 2 * r < d then q
  else if 2 * r = d then q + q % 2
  else q + 1

/-- How far a quotient with integer part `q` must be shifted right to have 53 bits; 0 for one that has no more. -/
def shiftFor (q : Nat) : Nat := q.log2 - 52

/-- The encoding, without its sign, of the positive or zero rational `num / den` rounded to binary64 (`den` not 0).
With the quotient in units of 2^-1074 and `s` the shift that leaves 53 bits, the rounded significand `m` and `s`
give the encoding `s * 2^52 + m`: a carry out of the significand moves into the exponent by itself, and `s = 0`
covers the subnormals. A value past the greatest finite one rounds to infinity. -/
def roundMag (num den : Nat) : Nat :=
  let n := num * scale
  let s := shiftFor (n / den)
  let m := roundDiv n (den * 2 ^ s)
  min (s * 2 ^ 52 + m) (2047 * 2 ^ 52)

/-- A sign and the 63 bits below it. -/
def withSign (neg : Bool) (m : Nat) : Bits64 := BitVec.ofBool neg ++ BitVec.ofNat 63 m

/-- Infinity with this sign. -/
def infinity (neg : Bool) : Bits64 := withSign neg (2047 * 2 ^ 52)

/-- A quiet NaN: its exponent and its quiet bit are IEEE 754's, its sign and payload are the free value. -/
def quietNaN (a b : Bits64) : Bits64 :=
  0x7FF8000000000000#64 ||| (Config.nanBits a b &&& 0x8007FFFFFFFFFFFF#64)

/-- `to_f64(n)` of 00_scope.md R13: the binary64 value equal to `n`, exact for |n| ≤ 2^53; 0 gives +0.0. -/
def ofInt (n : Int) : Bits64 := withSign (decide (n < 0)) (roundMag n.natAbs 1)

/-- `fdiv64(a, b)` of 00_scope.md R13: the IEEE 754 division, rounded to nearest, ties to even. -/
def div (a b : Bits64) : Bits64 :=
  let neg := sign a ^^ sign b
  if isNaN a || isNaN b then quietNaN a b
  else if isInf a then
    if isInf b then quietNaN a b else infinity neg
  else if isInf b then withSign neg 0
  else if mag b = 0 then
    if mag a = 0 then quietNaN a b else infinity neg
  else withSign neg (roundMag (mag a) (mag b))

end Sys2Proof.Machine.Binary64
end

