-- ==== Sys2Proof/Machine/Operands.lean ====
section
/-!
DEFINITION. Operand and field assembly, in one place (30_encoding.md R96): the little-endian fields of a byte
sequence (00_scope.md R11), the encoding of a setpoint, and the wheel rotation of a position.
-/

namespace Sys2Proof.Machine

/-- `d[i]`. A field is read only where the buffer has it (42_demux.md R164 checks the length before any field is
read), so the 0 for a missing byte is never seen. -/
def byteAt (d : List Byte) (i : Nat) : Byte := d.getD i 0#8

/-- `le16(d, i)`: the byte at the lower offset is the less significant one (20_memory.md R60). -/
def le16 (d : List Byte) (i : Nat) : BitVec 16 := byteAt d (i + 1) ++ byteAt d i

/-- `le32(d, i)` (20_memory.md R60). -/
def le32 (d : List Byte) (i : Nat) : BitVec 32 :=
  byteAt d (i + 3) ++ byteAt d (i + 2) ++ byteAt d (i + 1) ++ byteAt d i

/-- `enc16(v)`: the 16-bit two's complement of `v`, low byte first (00_scope.md R11). -/
def enc16 (v : Int) : List Byte :=
  let p := BitVec.ofInt 16 v
  [p.extractLsb' 0 8, p.extractLsb' 8 8]

/-- The setpoint a register holds, `sval_32` of it (10_state.md R29). -/
def setpoint (r : Word) : Int := r.toInt

/-- The range test of 41_framer.md R134. -/
def rpmOutOfRange (v : Int) : Bool := !(decide (Config.rpmMin ≤ v) && decide (v ≤ Config.rpmMax))

/-- The value 6535.0 (42_demux.md R170, R171). -/
def encCounts64 : Bits64 := Binary64.ofInt (Config.encCounts : Nat)

/-- The value 100.0 (42_demux.md R170). -/
def gearRatio64 : Bits64 := Binary64.ofInt (Config.gearRatio : Nat)

/-- The wheel rotation of the 16-byte layout: one division (42_demux.md R171). -/
def rotation16 (position : BitVec 32) : Bits64 :=
  Binary64.div (Binary64.ofInt position.toInt) encCounts64

/-- The wheel rotation of the 14-byte layout: two successive divisions (42_demux.md R170). -/
def rotation14 (position : BitVec 32) : Bits64 :=
  Binary64.div (rotation16 position) gearRatio64

end Sys2Proof.Machine
end

