-- ==== Sys2Proof/Machine/Ops.lean ====
section
/-!
DEFINITION. The shared operations: accepting or ignoring a command, entering phases TX, RX and FIN, raising an error
(the one way an error is taken) and retiring (the one way an outcome is published), the TX port, register reads and
plain register writes, and reset.
-/

namespace Sys2Proof.Machine

/-! ## Accepting and ignoring -/

/-- An access FRAMER cannot act on: its only effect is `ign <- 1` (60_exceptions.md R201, R202). -/
def State.setIgn (s : State) : State := { s with ign := true }

/-- The acceptance of a command discards the previous outcome, but not IGN, and sets LASTOP (30_encoding.md R83). -/
def State.accept (s : State) (op : Opcode) : State :=
  { s with done := false, err := false, errcode := 0, errarg := 0, ckres := 0, tel := none, lastop := op }

/-- A CMD write of operation code `op`: ignored unless the phase is IDLE, else accepted and started
(30_encoding.md R83). -/
def State.command (s : State) (op : Opcode) (start : State → State) : State :=
  if s.phase = .idle then start (s.accept op) else s.setIgn

/-! ## The phases of an operation -/

/-- Enters phase TX with a request frame (41_framer.md R135). -/
def State.startTx (s : State) (frame : List Byte) : State :=
  { s with txbuf := frame, txidx := 0, phase := .tx }

/-- Enters phase RX with an empty buffer for a PARSE, latching CFG.VERIFY_CK (42_demux.md R176). -/
def State.openParse (s : State) : State :=
  { s with rxmode := .parse, rxbuf := [], vck := s.cfg.getLsbD 0, phase := .rx }

/-- Enters phase RX with an empty buffer for a CKSUM (40_checksum.md R116). -/
def State.openCksum (s : State) : State := { s with rxmode := .cksum, rxbuf := [], phase := .rx }

/-- Appends a byte to the RX buffer (42_demux.md R177). -/
def State.appendRx (s : State) (b : Byte) : State := { s with rxbuf := s.rxbuf ++ [b] }

/-- An outcome has been computed: it waits in phase FIN (10_state.md R25). -/
def State.finish (s : State) (op : Opcode) (r : Result) : State :=
  { s with pend := some { op := op, result := r }, phase := .fin }

/-- Taking an error: `raise Err(code, arg)` ends the operation's computation with that outcome. There is no trap, no
vector and no saved state (60_exceptions.md R200). -/
def State.raiseError (s : State) (op : Opcode) (code : ErrCode) (arg : Word) : State :=
  s.finish op (.err code arg)

/-! ## Retiring -/

/-- The part of the retire step that every outcome has: back to phase IDLE with the sequencer cleared and DONE set
(70_reset_and_hazards.md R242). -/
def State.settle (s : State) : State :=
  { s with done := true, pend := none, rxmode := .none, rxbuf := [], vck := false, txbuf := [], txidx := 0,
           phase := .idle }

/-- No error: ERR, ERRCODE and ERRARG are 0 (70_reset_and_hazards.md R242). -/
def State.noError (s : State) : State := { s with err := false, errcode := 0, errarg := 0 }

/-- The error recorded: ERR, ERRCODE and ERRARG (70_reset_and_hazards.md R242, 60_exceptions.md R205). -/
def State.recordError (s : State) (code : ErrCode) (arg : Word) : State :=
  { s with err := true, errcode := code.code, errarg := arg }

/-- A PARSE's result becomes readable (42_demux.md R178). -/
def State.setTel (s : State) (t : Telemetry) : State := { s with tel := some t }

/-- A CKSUM's result becomes readable (40_checksum.md R116). -/
def State.setCkres (s : State) (ck : Byte) : State := { s with ckres := ck }

/-- What a successful outcome writes: `tel` if the operation is PARSE, `ckres` if it is CKSUM, nothing else
(70_reset_and_hazards.md R242); none when the value is not of the operation's kind. -/
def State.publishOk (s : State) (op : Opcode) (x : OkValue) : Option State :=
  if op = 0x4 then
    match x with
    | .telemetry t => some (s.noError.setTel t)
    | _ => none
  else if op = 0x5 then
    match x with
    | .checksum ck => some (s.noError.setCkres ck)
    | _ => none
  else some s.noError

/-- The retire step, enabled exactly in phase FIN (70_reset_and_hazards.md R242). It is also the return from an
error: FRAMER is in phase IDLE after it (60_exceptions.md R210). In another phase FRAMER has no step to take and the
state stays (DESIGN CHOICE, notes/assumptions/2.md). -/
def State.retire (s : State) : Outcome :=
  if s.phase = .fin then
    match s.pend with
    | none => .fault .malformedOutcome
    | some p =>
      match p.result with
      | .err code arg => .next (s.recordError code arg).settle
      | .ok x =>
        match s.publishOk p.op x with
        | some s' => .next s'.settle
        | none => .fault .malformedOutcome
  else .next s

/-! ## The TX port -/

/-- TX_VALID (20_memory.md R58). -/
def State.txValid (s : State) : Bool := s.phase == .tx

/-- TX_DATA, where the port offers a byte (20_memory.md R58); elsewhere R58 gives it no value, and it has none here. -/
def State.txData? (s : State) : Option Byte := if s.txValid then s.txbuf[s.txidx]? else none

/-- TX_LAST: the byte offered is the frame's last one (20_memory.md R58). R58 gives it only where TX_VALID = 1; that it
is 0 elsewhere is a DESIGN CHOICE, unsafe (notes/assumptions/14.md). -/
def State.txLast (s : State) : Bool := s.txValid && s.txidx + 1 == s.txbuf.length

/-- The transport takes a byte: the record of it, and the index moves on (20_memory.md R58). -/
def State.emit (s : State) (b : Byte) (last : Bool) : State :=
  { s with txidx := s.txidx + 1, env := { s.env with sent := s.env.sent ++ [(b, last)] } }

/-- One step of the transport with TX_READY asserted (20_memory.md R58): the byte offered is taken, and after the
last one the operation's outcome is `Ok(sent)`. With TX_VALID = 0 there is no transfer and the state stays (DESIGN
CHOICE, notes/assumptions/2.md). -/
def State.transfer (s : State) : Outcome :=
  if s.txValid then
    match s.txData? with
    | none => .fault .noByteToOffer
    | some b =>
      let taken := s.emit b s.txLast
      .next (if s.txLast then taken.finish s.lastop (.ok .sent) else taken)
  else .next s

/-! ## The register space -/

/-- The offset of a register (20_memory.md R53). -/
def regOffset : Reg → Offset
  | .cmd => 0x00
  | .status => 0x04
  | .errArg => 0x08
  | .cfg => 0x0C
  | .rpmL => 0x10
  | .rpmR => 0x14
  | .rxd => 0x18
  | .ckRes => 0x1C
  | .m1Rpm => 0x20
  | .m1Stat => 0x24
  | .m1Pos => 0x28
  | .m2Rpm => 0x2C
  | .m2Stat => 0x30
  | .m2Pos => 0x34
  | .io1 => 0x38
  | .io2 => 0x3C
  | .io1Flags => 0x40
  | .m1RotLo => 0x44
  | .m1RotHi => 0x48
  | .m2RotLo => 0x4C
  | .m2RotHi => 0x50

/-- The register an access at `off` reaches: bits 1:0 are ignored and the offsets from 0x54 on are reserved
(20_memory.md R53 to R55). -/
def regAt (off : Offset) : Option Reg :=
  match (off.extractLsb' 2 6).toNat with
  | 0 => some .cmd
  | 1 => some .status
  | 2 => some .errArg
  | 3 => some .cfg
  | 4 => some .rpmL
  | 5 => some .rpmR
  | 6 => some .rxd
  | 7 => some .ckRes
  | 8 => some .m1Rpm
  | 9 => some .m1Stat
  | 10 => some .m1Pos
  | 11 => some .m2Rpm
  | 12 => some .m2Stat
  | 13 => some .m2Pos
  | 14 => some .io1
  | 15 => some .io2
  | 16 => some .io1Flags
  | 17 => some .m1RotLo
  | 18 => some .m1RotHi
  | 19 => some .m2RotLo
  | 20 => some .m2RotHi
  | _ => none

/-- A telemetry register: 0 while no parse result is held (10_state.md R40). -/
def State.telReg (s : State) (f : Telemetry → Word) : Word :=
  match s.tel with
  | none => 0
  | some t => f t

/-- IO1 or IO2: the raw word sign-extended, 0 for a 14-byte layout (10_state.md R44). -/
def Telemetry.ioReg (t : Telemetry) (pick : BitVec 16 → BitVec 16 → BitVec 16) : Word :=
  match t.layout with
  | .l14 => 0
  | .l16 io1 io2 _ => (pick io1 io2).signExtend 32

/-- IO1_FLAGS: 0 for a 14-byte layout (10_state.md R45). -/
def Telemetry.flagsReg (t : Telemetry) : Word :=
  match t.layout with
  | .l14 => 0
  | .l16 _ _ flags1 => flags1.word

/-- The value of a register as read (10_state.md R26 to R46); the write-only CMD and RXD read 0. -/
def State.readReg (s : State) : Reg → Word
  | .cmd => 0
  | .status => s.statusWord
  | .errArg => s.errarg
  | .cfg => s.cfg
  | .rpmL => s.rpmL
  | .rpmR => s.rpmR
  | .rxd => 0
  | .ckRes => s.ckres.setWidth 32
  | .m1Rpm => s.telReg fun t => t.m1.rpm.signExtend 32
  | .m1Stat => s.telReg fun t => t.m1.status.setWidth 32
  | .m1Pos => s.telReg fun t => t.m1.position
  | .m2Rpm => s.telReg fun t => t.m2.rpm.signExtend 32
  | .m2Stat => s.telReg fun t => t.m2.status.setWidth 32
  | .m2Pos => s.telReg fun t => t.m2.position
  | .io1 => s.telReg fun t => t.ioReg fun a _ => a
  | .io2 => s.telReg fun t => t.ioReg fun _ b => b
  | .io1Flags => s.telReg Telemetry.flagsReg
  | .m1RotLo => s.telReg fun t => t.m1.rot.extractLsb' 0 32
  | .m1RotHi => s.telReg fun t => t.m1.rot.extractLsb' 32 32
  | .m2RotLo => s.telReg fun t => t.m2.rot.extractLsb' 0 32
  | .m2RotHi => s.telReg fun t => t.m2.rot.extractLsb' 32 32

/-- `RegRead(off)`: a value and no effect; a reserved offset reads 0 (20_memory.md R51, R54). -/
def State.regRead (s : State) (off : Offset) : Word :=
  match regAt off with
  | some r => s.readReg r
  | none => 0

/-- A write of STATUS clears IGN if bit 3 is 1 and does nothing else (10_state.md R35, 20_memory.md R52). -/
def State.writeStatus (s : State) (v : Word) : State := if v.getLsbD 3 then { s with ign := false } else s

/-- A write of CFG keeps bit 0; bits 31:1 are reserved (10_state.md R28, 20_memory.md R52). -/
def State.writeCfg (s : State) (v : Word) : State := { s with cfg := (v.extractLsb' 0 1).setWidth 32 }

/-- A write of RPM_L stores all 32 bits (10_state.md R29). -/
def State.writeRpmL (s : State) (v : Word) : State := { s with rpmL := v }

/-- A write of RPM_R stores all 32 bits (10_state.md R29). -/
def State.writeRpmR (s : State) (v : Word) : State := { s with rpmR := v }

/-- A write of a register that carries no instruction (20_memory.md R52). A read-only register ignores it, without
IGN (10_state.md R26). CMD and RXD words are instructions: `decodeWrite` reads them and they never come here. -/
def State.writePlain (s : State) (r : Reg) (v : Word) : State :=
  match r with
  | .status => s.writeStatus v
  | .cfg => s.writeCfg v
  | .rpmL => s.writeRpmL v
  | .rpmR => s.writeRpmR v
  | .cmd | .rxd => s
  | .errArg | .ckRes => s
  | .m1Rpm | .m1Stat | .m1Pos | .m2Rpm | .m2Stat | .m2Pos => s
  | .io1 | .io2 | .io1Flags => s
  | .m1RotLo | .m1RotHi | .m2RotLo | .m2RotHi => s

/-! ## Reset -/

/-- The reset step: every piece of FRAMER's state to its reset value, whatever the phase (70_reset_and_hazards.md
R230). The agents outside FRAMER are not reset (notes/assumptions/1.md, 12.md). -/
def State.doReset (s : State) : State := { State.reset with env := s.env }

end Sys2Proof.Machine
end

