-- ==== Sys2Proof/Machine/Buffered.lean ====
section
/-!
DEFINITION. The commands that take a buffer: PARSE (42_demux.md R176) and CKSUM (40_checksum.md R116) open it; the
RXD writes (Machine/Rxd.lean) fill and end it.
-/

namespace Sys2Proof.Machine

/-- PARSE (42_demux.md R176). -/
def execParse (s : State) : Outcome := .next (s.command 0x4 State.openParse)

/-- CKSUM (40_checksum.md R116). -/
def execCksum (s : State) : Outcome := .next (s.command 0x5 State.openCksum)

end Sys2Proof.Machine
end

