-- ==== Sys2Proof/Machine/Checksum.lean ====
section
/-!
DEFINITION. The checksum generator (40_checksum.md R110) and its incremental form (R113).
-/

namespace Sys2Proof.Machine

/-- `sum(d)`, an unbounded integer (00_scope.md R12). -/
def byteSum (d : List Byte) : Nat := (d.map BitVec.toNat).sum

/-- `checksum(d)`: (256 - (sum(d) mod 256)) mod 256 (40_checksum.md R110). -/
def checksum (d : List Byte) : Byte := BitVec.ofNat 8 ((256 - byteSum d % 256) % 256)

/-- The accumulator of a generator that sees the bytes one at a time, from `acc` on (40_checksum.md R113). -/
def accumulate (acc : Byte) (d : List Byte) : Byte := d.foldl (fun a b => a + b) acc

/-- The checksum such a generator gives: (256 - acc) mod 256 (40_checksum.md R113). -/
def incrementalChecksum (d : List Byte) : Byte := BitVec.ofNat 8 ((256 - (accumulate 0 d).toNat) % 256)

end Sys2Proof.Machine
end

