-- ==== Sys2Proof/Machine/Builder.lean ====
section
/-!
DEFINITION. The frame builder: the three request frames (41_framer.md R131 to R133) and the build commands ENC_INIT,
STATUS_POLL and RPM_SET (R138 to R140).
-/

namespace Sys2Proof.Machine

/-- A request frame is its bytes followed by their checksum (30_encoding.md R86). -/
def closeFrame (body : List Byte) : List Byte := body ++ [checksum body]

/-- T_EI (41_framer.md R131). -/
def encInitTemplate : List Byte := [183, 184, 1, 10, 1, 10]

/-- F_EI, the encoder-init frame (41_framer.md R131). -/
def encInitFrame : List Byte := closeFrame encInitTemplate

/-- T_SP (41_framer.md R132). -/
def statusPollTemplate : List Byte := [183, 184, 1, 4, 1, 216]

/-- F_SP, the status-poll frame (41_framer.md R132). -/
def statusPollFrame : List Byte := closeFrame statusPollTemplate

/-- The twelve bytes of the RPM frame before its checksum (41_framer.md R133, 30_encoding.md R89). -/
def rpmBody (l r : Int) : List Byte := [183, 184, 1, 207, 7, 1] ++ enc16 l ++ [1] ++ enc16 r ++ [0]

/-- The RPM frame of two setpoints in range (41_framer.md R133). -/
def rpmFrame (l r : Int) : List Byte := closeFrame (rpmBody l r)

/-- ERRARG of INVALID_RPM_RANGE: bit 0 the left setpoint, bit 1 the right one (41_framer.md R133, R134). -/
def rangeArg (l r : Int) : Word :=
  BitVec.ofNat 32 ((rpmOutOfRange r).toNat * 2 + (rpmOutOfRange l).toNat)

/-- RPM_SET after its acceptance: the range check comes before any byte is offered (41_framer.md R140). -/
def State.startRpm (s : State) : State :=
  let l := setpoint s.rpmL
  let r := setpoint s.rpmR
  if rpmOutOfRange l || rpmOutOfRange r then s.raiseError 0x3 .invalidRpmRange (rangeArg l r)
  else s.startTx (rpmFrame l r)

/-- ENC_INIT (41_framer.md R138). -/
def execEncInit (s : State) : Outcome := .next (s.command 0x1 fun a => a.startTx encInitFrame)

/-- STATUS_POLL (41_framer.md R139). -/
def execStatusPoll (s : State) : Outcome := .next (s.command 0x2 fun a => a.startTx statusPollFrame)

/-- RPM_SET (41_framer.md R140). -/
def execRpmSet (s : State) : Outcome := .next (s.command 0x3 State.startRpm)

end Sys2Proof.Machine
end

