-- ==== Sys2Proof/Machine/Reserved.lean ====
section
/-!
DEFINITION. The eleven reserved operation codes: each is accepted and takes the error ILLEGAL_COMMAND, ERRARG the
operation code (60_exceptions.md R203).
-/

namespace Sys2Proof.Machine

/-- A CMD write of a reserved operation code (60_exceptions.md R203). -/
def State.illegalCommand (s : State) (op : Opcode) : State :=
  s.command op fun a => a.raiseError op .illegalCommand (op.setWidth 32)

/-- RESERVED_0x0 (60_exceptions.md R203). -/
def execReserved0 (s : State) : Outcome := .next (s.illegalCommand 0x0)

/-- RESERVED_0x6 (60_exceptions.md R203). -/
def execReserved6 (s : State) : Outcome := .next (s.illegalCommand 0x6)

/-- RESERVED_0x7 (60_exceptions.md R203). -/
def execReserved7 (s : State) : Outcome := .next (s.illegalCommand 0x7)

/-- RESERVED_0x8 (60_exceptions.md R203). -/
def execReserved8 (s : State) : Outcome := .next (s.illegalCommand 0x8)

/-- RESERVED_0x9 (60_exceptions.md R203). -/
def execReserved9 (s : State) : Outcome := .next (s.illegalCommand 0x9)

/-- RESERVED_0xA (60_exceptions.md R203). -/
def execReservedA (s : State) : Outcome := .next (s.illegalCommand 0xA)

/-- RESERVED_0xB (60_exceptions.md R203). -/
def execReservedB (s : State) : Outcome := .next (s.illegalCommand 0xB)

/-- RESERVED_0xC (60_exceptions.md R203). -/
def execReservedC (s : State) : Outcome := .next (s.illegalCommand 0xC)

/-- RESERVED_0xD (60_exceptions.md R203). -/
def execReservedD (s : State) : Outcome := .next (s.illegalCommand 0xD)

/-- RESERVED_0xE (60_exceptions.md R203). -/
def execReservedE (s : State) : Outcome := .next (s.illegalCommand 0xE)

/-- RESERVED_0xF (60_exceptions.md R203). -/
def execReservedF (s : State) : Outcome := .next (s.illegalCommand 0xF)

end Sys2Proof.Machine
end

