-- ==== Sys2Proof/Machine/Demux.lean ====
section
/-!
DEFINITION. The response demultiplexer (42_demux.md): the parse function R160, cut along the opcode table's three
RESPONSE_FRAME rows, and the meanings of those rows.
-/

namespace Sys2Proof.Machine

/-- The payload: the buffer without its first five bytes and without its last byte (42_demux.md R163). -/
def payload (d : List Byte) : List Byte := (d.drop 5).dropLast

/-- The trailing-checksum byte, the last byte of the buffer wherever it ends (42_demux.md R163); a buffer that
reaches this has at least 20 bytes. -/
def lastByte (d : List Byte) : Byte := d.getLastD 0#8

/-- `motor(p, k, L)`: one motor record from payload offset `k` on, the wheel rotation by the layout's own formula
(42_demux.md R166, R170, R171). -/
def motorRecord (rotation : BitVec 32 → Bits64) (p : List Byte) (k : Nat) : MotorTelemetry :=
  let pos := le32 p (k + 3)
  { rpm := le16 p k, status := byteAt p (k + 2), position := pos, rot := rotation pos }

/-- The parse result of the 14-byte layout (42_demux.md R167, 30_encoding.md R92). -/
def telemetry14 (p : List Byte) : Telemetry where
  layout := .l14
  m1 := motorRecord rotation14 p 0
  m2 := motorRecord rotation14 p 7

/-- The parse result of the 16-byte layout (42_demux.md R168, R169, 30_encoding.md R93). -/
def telemetry16 (p : List Byte) : Telemetry where
  layout := .l16 (le16 p 14) (le16 p 16) (decodeIoFlags (le16 p 14))
  m1 := motorRecord rotation16 p 0
  m2 := motorRecord rotation16 p 7

/-- The outcome of a buffer of `n` bytes that is too short, ERRARG the length (42_demux.md R161, R164). -/
def truncated (n : Nat) : Result := .err .truncatedFrame (BitVec.ofNat 32 n)

/-- ERRARG of CHECKSUM_MISMATCH: bits 15:8 the expected checksum, bits 7:0 the received byte (42_demux.md R165). -/
def mismatchArg (expected received : Byte) : Word := BitVec.ofNat 32 (expected.toNat * 256 + received.toNat)

/-- A buffer whose layout has been selected: the length check comes before any field is read (42_demux.md R164),
then the checksum is verified if `vck` (R165), then the fields are decoded. -/
def parseLayout (need : Nat) (decodeFields : List Byte → Telemetry) (d : List Byte) (vck : Bool) : Result :=
  let p := payload d
  let expected := checksum d.dropLast
  if p.length < need then truncated d.length
  else if vck && lastByte d != expected then .err .checksumMismatch (mismatchArg expected (lastByte d))
  else .ok (.telemetry (decodeFields p))

/-- The outcome of a buffer whose declared length is 14 (42_demux.md R160). -/
def parse14 (d : List Byte) (vck : Bool) : Result := parseLayout Config.l14Need telemetry14 d vck

/-- The outcome of a buffer whose declared length is 16 (42_demux.md R160). -/
def parse16 (d : List Byte) (vck : Bool) : Result := parseLayout Config.l16Need telemetry16 d vck

/-- The outcome of a buffer whose declared length is no layout (42_demux.md R162). -/
def parseUnknown (declaredLength : Byte) : Result := .err .unknownLayout (declaredLength.setWidth 32)

/-- `parse(d, vck)` (42_demux.md R160), in the order of 60_exceptions.md R207. -/
def parseResponse (d : List Byte) (vck : Bool) : Result :=
  match declaredLength? d with
  | none => truncated d.length
  | some n =>
    match selectLayout n with
    | .l14 => parse14 d vck
    | .l16 => parse16 d vck
    | .unknown m => parseUnknown m

/-- The end of a PARSE buffer: the outcome is computed into `pend` (42_demux.md R176). The layout selector is read
there and nowhere else, so in any other state a response row has no frame to act on and changes nothing
(DEDUCED, notes/assumptions/4.md). -/
def State.endParse (s : State) (outcome : List Byte → Bool → Result) : State :=
  if s.phase = .rx ∧ s.rxmode = .parse then s.finish 0x4 (outcome s.rxbuf s.vck) else s

/-- RESP_L14 (42_demux.md R166, R167, R170). -/
def execRespL14 (s : State) : Outcome := .next (s.endParse parse14)

/-- RESP_L16 (42_demux.md R168, R169, R171). -/
def execRespL16 (s : State) : Outcome := .next (s.endParse parse16)

/-- RESP_UNKNOWN (42_demux.md R162). -/
def execRespUnknown (declaredLength : Byte) (s : State) : Outcome :=
  .next (s.endParse fun _ _ => parseUnknown declaredLength)

/-- The end of a PARSE buffer by the instruction its declared-length byte selects; a buffer of fewer than five bytes
selects none and is TRUNCATED_FRAME (42_demux.md R161). -/
def runSelector (s : State) : Outcome :=
  match declaredLength? s.rxbuf with
  | none => .next (s.endParse fun d _ => truncated d.length)
  | some n =>
    match selectLayout n with
    | .l14 => execRespL14 s
    | .l16 => execRespL16 s
    | .unknown m => execRespUnknown m s

end Sys2Proof.Machine
end

