-- ==== Sys2Proof/Machine/Rxd.lean ====
section
/-!
DEFINITION. The RXD writes: the four forms of 30_encoding.md R85 with the effect of 42_demux.md R177, and their being
ignored outside phase RX (60_exceptions.md R202).
-/

namespace Sys2Proof.Machine

/-- The end of a buffer: a PARSE's outcome by the layout selector, else the checksum of the buffer
(42_demux.md R177). -/
def State.endBuffer (s : State) : Outcome :=
  if s.rxmode = .parse then runSelector s
  else .next (s.finish 0x5 (.ok (.checksum (checksum s.rxbuf))))

/-- An RXD write is delivered in phase RX only; elsewhere it is ignored and sets IGN (60_exceptions.md R202). -/
def State.deliver (s : State) (act : State → Outcome) : Outcome :=
  if s.phase = .rx then act s else .next s.setIgn

/-- RXD_BYTE: append DATA (30_encoding.md R85). -/
def execRxdByte (data : Byte) (s : State) : Outcome := s.deliver fun r => .next (r.appendRx data)

/-- RXD_LAST: append DATA, then end the buffer (30_encoding.md R85). -/
def execRxdLast (data : Byte) (s : State) : Outcome := s.deliver fun r => (r.appendRx data).endBuffer

/-- RXD_END: end the buffer without appending; DATA is not used (30_encoding.md R85). -/
def execRxdEnd (_data : Byte) (s : State) : Outcome := s.deliver fun r => r.endBuffer

/-- RXD_NOP: nothing; DATA is not used (30_encoding.md R85). -/
def execRxdNop (_data : Byte) (s : State) : Outcome := s.deliver fun r => .next r

end Sys2Proof.Machine
end

