-- ==== Sys2Proof/Machine/Dispatch.lean ====
section
/-! DEFINITION. The meaning of every instruction: one arm per constructor of Instr. -/

namespace Sys2Proof.Machine

def exec (i : Instr) (s : State) : Host.Outcome State Fault Refusal :=
  match i with
  | .encInit => Sys2Proof.Machine.execEncInit s
  | .statusPoll => Sys2Proof.Machine.execStatusPoll s
  | .rpmSet => Sys2Proof.Machine.execRpmSet s
  | .parse => Sys2Proof.Machine.execParse s
  | .cksum => Sys2Proof.Machine.execCksum s
  | .reserved0 => Sys2Proof.Machine.execReserved0 s
  | .reserved6 => Sys2Proof.Machine.execReserved6 s
  | .reserved7 => Sys2Proof.Machine.execReserved7 s
  | .reserved8 => Sys2Proof.Machine.execReserved8 s
  | .reserved9 => Sys2Proof.Machine.execReserved9 s
  | .reservedA => Sys2Proof.Machine.execReservedA s
  | .reservedB => Sys2Proof.Machine.execReservedB s
  | .reservedC => Sys2Proof.Machine.execReservedC s
  | .reservedD => Sys2Proof.Machine.execReservedD s
  | .reservedE => Sys2Proof.Machine.execReservedE s
  | .reservedF => Sys2Proof.Machine.execReservedF s
  | .rxdByte data => Sys2Proof.Machine.execRxdByte data s
  | .rxdLast data => Sys2Proof.Machine.execRxdLast data s
  | .rxdEnd data => Sys2Proof.Machine.execRxdEnd data s
  | .rxdNop data => Sys2Proof.Machine.execRxdNop data s
  | .respL14 => Sys2Proof.Machine.execRespL14 s
  | .respL16 => Sys2Proof.Machine.execRespL16 s
  | .respUnknown declaredLength => Sys2Proof.Machine.execRespUnknown declaredLength s

end Sys2Proof.Machine
end

