-- ==== Sys2Proof/Machine/Agents.lean ====
section
/-!
DEFINITION. The steps of the three agents and of reset (20_memory.md R61, R62, R67), and who moves next.
-/

namespace Sys2Proof.Machine

/-! ## The host -/

/-- `RegWrite(off, v)` (20_memory.md R52): the instruction the write carries, if it carries one, else a plain
register write; a reserved offset has no effect (R54). -/
def State.regWrite (s : State) (off : Offset) (v : Word) : Outcome :=
  match regAt off with
  | none => .next s
  | some r =>
    match decodeWrite r v with
    | some i => exec i s
    | none => .next (s.writePlain r v)

/-- The host has read `v` at `off`, and its program goes on at `hpc` (30_encoding.md R100). -/
def State.hostRead (s : State) (off : Offset) (v : Word) (hpc : Nat) : State :=
  { s with env := { s.env with reads := s.env.reads ++ [(off, v)], hpc := hpc } }

/-- The host's program goes on at the next position. -/
def State.hostNext (s : State) : State := { s with env := { s.env with hpc := s.env.hpc + 1 } }

/-- The host makes the one transaction of a statement (30_encoding.md R99 to R101). A POLL stays where it is while
bit 0 (BUSY) of the value read is 1; an IFBIT branches on the bit read. -/
def State.hostOp (s : State) (op : HostOp) : Outcome :=
  match op with
  | .rd off => .next (s.hostRead off (s.regRead off) (s.env.hpc + 1))
  | .wr off v => s.hostNext.regWrite off v
  | .poll =>
    let v := s.regRead (regOffset .status)
    .next (s.hostRead (regOffset .status) v (if v.getLsbD 0 then s.env.hpc else s.env.hpc + 1))
  | .ifBit off k b target =>
    let v := s.regRead off
    .next (s.hostRead off v (if v.getLsbD k = b then target else s.env.hpc + 1))

/-- The host's turn: the statement at its program counter; past the end of its program it makes no access (DESIGN
CHOICE, notes/assumptions/2.md). -/
def State.hostMove (s : State) : Outcome :=
  match s.env.prog[s.env.hpc]? with
  | none => .next s
  | some op => s.hostOp op

/-! ## Who moves -/

/-- The agent to move: the schedule's first, or, when the schedule is empty, the eager order of 95_test_vectors.md
section 6 (retire if there is an outcome, else transfer if there is a byte, else the host). DESIGN CHOICE
(notes/assumptions/2.md). -/
def State.nextAgent (s : State) : Agent :=
  match s.env.sched with
  | a :: _ => a
  | [] =>
    match s.phase with
    | .fin => .framer
    | .tx => .transport
    | .idle | .rx => .host

/-- The schedule without the move about to be made. -/
def State.takeTurn (s : State) : State := { s with env := { s.env with sched := s.env.sched.tail } }

/-- One atomic step of one agent (20_memory.md R61). -/
def State.move (s : State) (a : Agent) : Outcome :=
  match a with
  | .host => s.hostMove
  | .transport => s.transfer
  | .framer => s.retire
  | .environment => .next s.doReset

/-! ## The host's program -/

/-- The 32-bit data word of an immediate: `tc_32` of a negative one, else the number (30_encoding.md R99). -/
def immWord (v : Int) : Word := BitVec.ofInt 32 v

/-- `WR <reg>, <imm>` as a transaction (30_encoding.md R99, R101). -/
def wrReg (r : Reg) (imm : Int) : HostOp := .wr (regOffset r) (immWord imm)

/-- `RXB b` and `RXL b` as the data of a WR RXD (30_encoding.md R100). -/
def rxbWord (b : Byte) : Int := b.toNat

/-- `RXL b`: 0x100 + b (30_encoding.md R100). -/
def rxlWord (b : Byte) : Int := 0x100 + b.toNat

/-- `FEED b0, ..., bk`: an RXB for each byte but the last, an RXL for the last (30_encoding.md R100). -/
def feedOps : List Byte → List HostOp
  | [] => []
  | [b] => [wrReg .rxd (rxlWord b)]
  | b :: c :: rest => wrReg .rxd (rxbWord b) :: feedOps (c :: rest)

/-- The expansion of a statement (30_encoding.md R99, R100), with the position of each label given. -/
def expandStmt (labelAt : Label → Nat) : HostStmt → List HostOp
  | .rd r => [.rd (regOffset r)]
  | .wr r imm => [wrReg r imm]
  | .encInit => [wrReg .cmd 0x1]
  | .statusPoll => [wrReg .cmd 0x2]
  | .rpmSet => [wrReg .cmd 0x3]
  | .parse => [wrReg .cmd 0x4]
  | .cksum => [wrReg .cmd 0x5]
  | .setRpm l r => [wrReg .rpmL l, wrReg .rpmR r]
  | .strict on => [wrReg .cfg (if on then 1 else 0)]
  | .rxb b => [wrReg .rxd (rxbWord b)]
  | .rxl b => [wrReg .rxd (rxlWord b)]
  | .rxEnd => [wrReg .rxd 0x300]
  | .feed bytes => feedOps bytes
  | .poll => [.poll]
  | .clrIgn => [wrReg .status 0x8]
  | .label _ => []
  | .ifBit r k v l => [.ifBit (regOffset r) k v (labelAt l)]

/-- The position a label marks: that of the next statement's first transaction (30_encoding.md R100). A label that is
not set marks the program's end (DESIGN CHOICE, notes/assumptions/10.md); `programWf` refuses such a program. -/
def labelPosition (l : Label) : List HostStmt → Nat
  | [] => 0
  | st :: rest =>
    if st = .label l then 0 else (expandStmt (fun _ => 0) st).length + labelPosition l rest

/-- The transactions of a host program (30_encoding.md R99 to R101). -/
def assemble (prog : List HostStmt) : List HostOp :=
  prog.flatMap (expandStmt fun l => labelPosition l prog)

end Sys2Proof.Machine
end

