-- ==== Sys2Proof/Machine/Fetch.lean ====
section
/-!
DEFINITION. Where an instruction is fetched from: FRAMER fetches nothing (20_memory.md R65), its instructions come in
the host's next register write, and a response row's in the RX buffer that the write ends.
-/

namespace Sys2Proof.Machine

/-- The host's next transaction, the only one of its program, is this write, and the host moves next. -/
def State.withHostWrite (s : State) (r : Reg) (v : Word) : State :=
  { s with env := { s.env with sched := [.host], prog := [.wr (regOffset r) v], hpc := 0 } }

/-- A PARSE is collecting its buffer and has received exactly these bytes. -/
def State.withParseBuffer (s : State) (d : List Byte) : State :=
  { s with phase := .rx, rxmode := .parse, rxbuf := d }

/-- The opcode-table word of this format placed where the next step takes its instruction from: in the host's next
write, or in a PARSE buffer that the host's next write, an RXD_END, ends. -/
def State.placeWord (s : State) (f : Format) (w : Nat) : State :=
  match f with
  | .cmd => s.withHostWrite .cmd (BitVec.ofNat 32 w)
  | .rxd => s.withHostWrite .rxd (BitVec.ofNat 32 w)
  | .response => (s.withParseBuffer (tableFrame w)).withHostWrite .rxd 0x300

/-- The instruction the next step runs, if it runs one: the host moves next and its statement is a write to CMD or to
RXD. -/
def State.fetched (s : State) : Option Instr :=
  match s.nextAgent, s.env.prog[s.env.hpc]? with
  | .host, some (.wr off v) =>
    match regAt off with
    | some r => decodeWrite r v
    | none => none
  | _, _ => none

end Sys2Proof.Machine
end

