-- ==== Sys2Proof/Machine/Step.lean ====
section
/-!
DEFINITION. The step: the agent whose turn it is takes its one atomic step (20_memory.md R61, R62).
-/

namespace Sys2Proof.Machine

/-- One step of the machine. -/
def step (s : State) : Host.Outcome State Fault Refusal := s.takeTurn.move s.nextAgent

/-- `s` with the instruction of an opcode-table word placed where the next step takes it from; a word that is no
instruction changes nothing (notes/assumptions/3.md says how a program comes to run). -/
def State.withFetchWord (s : State) (nbits w : Nat) : State :=
  match tableFormat nbits w with
  | some f => s.placeWord f w
  | none => s

end Sys2Proof.Machine
end

