-- ==== Sys2Proof/Laws/Binary64.lean ====
section
/-!
SUPPORT. The rounding operation and the fields of the encodings it makes.
-/

namespace Sys2Proof.Machine.Binary64

/-! ### `roundDiv` -/

/-- The rounded quotient is within half a unit of the exact one, and even on a tie. -/
theorem roundDiv_spec (n d : Nat) (hd : 0 < d) :
    2 * n ≤ (2 * roundDiv n d + 1) * d ∧ 2 * (roundDiv n d * d) ≤ 2 * n + d ∧
      ((2 * n = (2 * roundDiv n d + 1) * d ∨ 2 * (roundDiv n d * d) = 2 * n + d) → roundDiv n d % 2 = 0) := by
  have hdm := Nat.div_add_mod n d
  have hr : n % d < d := Nat.mod_lt n hd
  set q := n / d with hq
  set r := n % d with hrr
  have hn : n = q * d + r := by rw [Nat.mul_comm]; exact hdm.symm
  unfold roundDiv
  simp only [← hq, ← hrr]
  split
  · refine ⟨by rw [hn]; nlinarith, by rw [hn]; nlinarith, ?_⟩
    rintro (h | h)
    · rw [hn] at h; nlinarith
    · rw [hn] at h; nlinarith
  · split
    · rename_i h1 h2
      rcases Nat.mod_two_eq_zero_or_one q with h | h
      · rw [h]
        refine ⟨by rw [hn]; nlinarith, by rw [hn]; nlinarith, fun _ => by omega⟩
      · rw [h]
        refine ⟨by rw [hn]; nlinarith, by rw [hn]; nlinarith, fun _ => by omega⟩
    · refine ⟨by rw [hn]; nlinarith, by rw [hn]; nlinarith, ?_⟩
      rintro (h | h)
      · rw [hn] at h; nlinarith
      · exfalso
        have h2 : 2 * r = d := by rw [hn] at h; nlinarith
        omega

/-- A quotient of at least `k` units rounds to at least `k`. -/
theorem le_roundDiv (n d k : Nat) (hd : 0 < d) (h : k * d ≤ n) : k ≤ roundDiv n d := by
  have hk : k ≤ n / d := (Nat.le_div_iff_mul_le hd).mpr h
  unfold roundDiv
  simp only
  split
  · exact hk
  · split <;> omega

/-- A quotient below `k` units rounds to at most `k`. -/
theorem roundDiv_le (n d k : Nat) (hd : 0 < d) (h : n < k * d) : roundDiv n d ≤ k := by
  have hk : n / d < k := (Nat.div_lt_iff_lt_mul hd).mpr h
  unfold roundDiv
  simp only
  split
  · omega
  · split <;> omega

/-! ### Encodings -/

@[simp] theorem sign_withSign (neg : Bool) (m : Nat) : sign (withSign neg m) = neg := by
  rw [sign, withSign, BitVec.getLsbD_append]
  simp

theorem withSign_toNat_mod (neg : Bool) (m : Nat) : (withSign neg m).toNat % 2 ^ 63 = m % 2 ^ 63 := by
  rw [withSign, BitVec.toNat_append, BitVec.toNat_ofNat, ← Nat.shiftLeft_add_eq_or_of_lt (Nat.mod_lt _ (by norm_num)),
    Nat.shiftLeft_eq, Nat.mul_comm, Nat.mul_add_mod, Nat.mod_mod]

/-- The exponent field of a signed encoding. -/
theorem expo_withSign (neg : Bool) (m : Nat) (h : m < 2 ^ 63) : expo (withSign neg m) = m / 2 ^ 52 := by
  have hm := withSign_toNat_mod neg m
  rw [Nat.mod_eq_of_lt h] at hm
  rw [expo, BitVec.extractLsb'_toNat, Nat.shiftRight_eq_div_pow]
  norm_num at *
  omega

/-- The fraction field of a signed encoding. -/
theorem frac_withSign (neg : Bool) (m : Nat) (h : m < 2 ^ 63) : frac (withSign neg m) = m % 2 ^ 52 := by
  have hm := withSign_toNat_mod neg m
  rw [Nat.mod_eq_of_lt h] at hm
  rw [frac, BitVec.extractLsb'_toNat, Nat.shiftRight_eq_div_pow]
  norm_num at *
  omega

/-- The magnitude of the encoding of a significand `m` shifted by `s`, the carry case `m = 2^53` among them. -/
theorem mag_withSign (neg : Bool) (s m : Nat) (hm : m ≤ 2 ^ 53) (hs : s = 0 ∨ 2 ^ 52 ≤ m)
    (hfin : s * 2 ^ 52 + m < 2047 * 2 ^ 52) : mag (withSign neg (s * 2 ^ 52 + m)) = m * 2 ^ s := by
  have hlt : s * 2 ^ 52 + m < 2 ^ 63 := by norm_num at *; omega
  rw [mag, expo_withSign _ _ hlt, frac_withSign _ _ hlt]
  rcases Nat.lt_or_ge m (2 ^ 52) with h | h
  · have hs0 : s = 0 := by omega
    subst hs0
    have : m / 2 ^ 52 = 0 := Nat.div_eq_of_lt h
    rw [Nat.zero_mul, Nat.zero_add, this, if_pos rfl, Nat.mod_eq_of_lt h, Nat.pow_zero, Nat.mul_one]
  · rcases Nat.lt_or_ge m (2 ^ 53) with h' | h'
    · have hd : (s * 2 ^ 52 + m) / 2 ^ 52 = s + 1 := by norm_num at *; omega
      have hr : (s * 2 ^ 52 + m) % 2 ^ 52 = m - 2 ^ 52 := by norm_num at *; omega
      rw [hd, hr, if_neg (by omega), show 2 ^ 52 + (m - 2 ^ 52) = m by omega, Nat.add_sub_cancel]
    · have hm' : m = 2 ^ 53 := by omega
      subst hm'
      have hd : (s * 2 ^ 52 + 2 ^ 53) / 2 ^ 52 = s + 2 := by norm_num at *; omega
      have hr : (s * 2 ^ 52 + 2 ^ 53) % 2 ^ 52 = 0 := by omega
      rw [hd, hr, if_neg (by omega), show s + 2 - 1 = s + 1 by omega, Nat.pow_succ]
      ring_nf

/-- The shift leaves between 2^52 and 2^53 of a quotient that has more than 53 bits. -/
theorem shiftFor_spec (q : Nat) :
    (shiftFor q = 0 ∧ q < 2 ^ 53) ∨ (2 ^ 52 * 2 ^ shiftFor q ≤ q ∧ q < 2 ^ 53 * 2 ^ shiftFor q) := by
  unfold shiftFor
  rcases Nat.lt_or_ge q (2 ^ 53) with h | h
  · refine .inl ⟨?_, h⟩
    rcases Nat.eq_zero_or_pos q with h0 | h0
    · subst h0; rfl
    · have := (Nat.log2_lt (by omega)).mpr h
      omega
  · have h0 : q ≠ 0 := by intro hq; subst hq; norm_num at h
    have hl : 53 ≤ q.log2 := (Nat.le_log2 h0).mpr h
    refine .inr ⟨?_, ?_⟩
    · rw [← pow_add, show 52 + (q.log2 - 52) = q.log2 by omega]
      exact Nat.log2_self_le h0
    · rw [← pow_add, show 53 + (q.log2 - 52) = q.log2 + 1 by omega]
      exact (Nat.log2_lt h0).mp (by omega)

/-- A magnitude is a significand of at most 53 bits times a power of two. -/
theorem mag_eq_significand (y : Bits64) : ∃ k e, mag y = k * 2^e ∧ k < 2^53 ∧ (e = 0 ∨ 2^52 ≤ k) := by
  have hf : frac y < 2^52 := (y.extractLsb' 0 52).isLt
  unfold mag
  split
  · exact ⟨frac y, 0, by simp, by omega, .inl rfl⟩
  · exact ⟨2^52 + frac y, expo y - 1, rfl, by omega, .inr (by omega)⟩

/-- Of the multiples of `D`, `r * D` with a quotient `r` rounded to nearest even is nearest to `n`. -/
theorem roundedMultiple_nearest (n D r m : ℤ) (hD : 0 < D) (b1 : 2 * n ≤ (2 * r + 1) * D) (b2 : 2 * (r * D) ≤ 2 * n + D)
   (b3 : (2 * n = (2 * r + 1) * D ∨ 2 * (r * D) = 2 * n + D) → r % 2 = 0) :
   |r * D - n| ≤ |m * D - n| ∧ (|r * D - n| = |m * D - n| → r ≠ m → r % 2 = 0) := by
  rcases lt_trichotomy r m with h | h | h
  · have h' : r + 1 ≤ m := h
    have hx : m * D ≥ (r + 1) * D := by nlinarith
    have : m * D - n ≥ 0 := by nlinarith
    rw [abs_of_nonneg this]
    constructor
    · rw [abs_le]; constructor <;> nlinarith
    · intro heq _
      apply b3; left
      rcases abs_cases (r * D - n) with ⟨h1, h2⟩ | ⟨h1, h2⟩ <;> rw [h1] at heq <;> nlinarith
  · subst h
    exact ⟨le_refl _, fun _ hne => absurd rfl hne⟩
  · have h' : m + 1 ≤ r := h
    have hx : m * D ≤ (r - 1) * D := by nlinarith
    have : m * D - n ≤ 0 := by nlinarith
    rw [abs_of_nonpos this]
    constructor
    · rw [abs_le]; constructor <;> nlinarith
    · intro heq _
      apply b3; right
      rcases abs_cases (r * D - n) with ⟨h1, h2⟩ | ⟨h1, h2⟩ <;> rw [h1] at heq <;> nlinarith

/-- A quotient rounded to 53 bits is nearer to the exact one than any value of at most 53 bits, and one as near leaves
it even. -/
theorem roundDiv_shiftFor_nearest (n d : Nat) (hd : 0 < d) (s r : Nat) (hs : s = shiftFor (n / d))
    (hr : r = roundDiv n (d * 2^s)) (k e : Nat) (hk : k < 2^53) :
   |(r * 2^s : ℤ) * d - n| ≤ |(k * 2^e : ℤ) * d - n| ∧ (|(r * 2^s : ℤ) * d - n| = |(k * 2^e : ℤ) * d - n| → r * 2^s ≠ k * 2^e → r % 2 = 0) := by
  have hD : 0 < d * 2^s := by positivity
  obtain ⟨b1, b2, b3⟩ := roundDiv_spec n (d * 2^s) hD
  rw [← hr] at b1 b2 b3
  have mult : ∀ m : Nat, k * 2^e = m * 2^s → |(r * 2^s : ℤ) * d - n| ≤ |(k * 2^e : ℤ) * d - n| ∧ (|(r * 2^s : ℤ) * d - n| = |(k * 2^e : ℤ) * d - n| → r * 2^s ≠ k * 2^e → r % 2 = 0) := by
    intro m hm
    have hmz : (k * 2^e : ℤ) = m * 2^s := by exact_mod_cast hm
    rw [hmz]
    obtain ⟨m1, m2⟩ := roundedMultiple_nearest n (d * 2^s : ℤ) r m (by exact_mod_cast hD) (by exact_mod_cast b1) (by exact_mod_cast b2) (by intro h; exact_mod_cast b3 (by exact_mod_cast h))
    have e1 : (r * 2^s : ℤ) * d = r * (d * 2^s) := by ring
    have e2 : (m * 2^s : ℤ) * d = m * (d * 2^s) := by ring
    rw [e1, e2]
    refine ⟨m1, fun h hne => ?_⟩
    have := m2 h (by intro h; apply hne; rw [hm]; congr 1; exact_mod_cast h)
    exact_mod_cast this
  rcases Nat.lt_or_ge e s with hes | hes
  · -- smaller exponent
    rcases shiftFor_spec (n / d) with ⟨h0, _⟩ | ⟨hlo, _⟩
    · rw [← hs] at h0; omega
    · rw [← hs] at hlo
      have hlow : 2^52 * 2^s * d ≤ n := (Nat.le_div_iff_mul_le hd).mp hlo
      have hlt : k * 2^e < 2^52 * 2^s := by
        calc k * 2^e < 2^53 * 2^e := by apply Nat.mul_lt_mul_of_pos_right hk; positivity
          _ = 2^52 * 2^(e+1) := by ring
          _ ≤ 2^52 * 2^s := by apply Nat.mul_le_mul_left; exact Nat.pow_le_pow_right (by norm_num) hes
      have hltz : (k * 2^e : ℤ) * d < 2^52 * 2^s * d := by
        have : k * 2^e * d < 2^52*2^s*d := Nat.mul_lt_mul_of_pos_right hlt hd
        exact_mod_cast this
      have hlowz : (2^52 * 2^s * d : ℤ) ≤ n := by exact_mod_cast hlow
      have hrr : |(r * 2^s : ℤ) * d - n| ≤ n - 2^52 * 2^s * d := by
        have hq := le_roundDiv n (d*2^s) (2^52) hD (by rw [← Nat.mul_assoc, Nat.mul_right_comm]; exact hlow)
        rw [← hr] at hq
        have hqz : (2^52 : ℤ) ≤ r := by exact_mod_cast hq
        set D : ℤ := d * 2^s with hDdef
        have e1 : (r * 2^s : ℤ) * d = r * D := by rw [hDdef]; ring
        have e2 : (2^52 * 2^s * d : ℤ) = 2^52 * D := by rw [hDdef]; ring
        rw [e1, e2]
        rw [e2] at hlowz
        rcases eq_or_lt_of_le hqz with h | h
        · rw [← h]; rw [abs_le]; constructor <;> nlinarith
        · have : (2^52 : ℤ) + 1 ≤ r := h
          rw [abs_le]; constructor <;> nlinarith
      have hk : |(k * 2^e : ℤ) * d - n| = n - (k * 2^e : ℤ) * d := by
        rw [abs_of_nonpos (by linarith)]; ring
      rw [hk]
      refine ⟨by linarith, fun h => by linarith⟩
  · obtain ⟨j, rfl⟩ := Nat.exists_eq_add_of_le hes
    exact mult (k * 2^j) (by rw [pow_add]; ring)

end Sys2Proof.Machine.Binary64
end

