-- ==== Sys2Proof/Laws/Checksum.lean ====
section
/-! SUPPORT. Sums of bytes, and the checksum as a number. -/

namespace Sys2Proof.Machine

@[simp] theorem byteSum_nil : byteSum [] = 0 := rfl

@[simp] theorem byteSum_cons (b : Byte) (d : List Byte) : byteSum (b :: d) = b.toNat + byteSum d := by
  simp [byteSum]

@[simp] theorem byteSum_append (d e : List Byte) : byteSum (d ++ e) = byteSum d + byteSum e := by
  simp [byteSum]

/-- The checksum as a number. -/
theorem checksum_toNat (d : List Byte) : (checksum d).toNat = (256 - byteSum d % 256) % 256 := by
  simp only [checksum, BitVec.toNat_ofNat]
  omega

/-- What the accumulator holds after some bytes. -/
theorem accumulate_toNat (acc : Byte) (d : List Byte) :
    (accumulate acc d).toNat = (acc.toNat + byteSum d) % 256 := by
  induction d generalizing acc with
  | nil =>
    have := acc.isLt
    simp only [accumulate, List.foldl_nil, byteSum_nil]
    omega
  | cons b d ih =>
    have h := ih (acc + b)
    simp only [accumulate, List.foldl_cons, byteSum_cons] at h ⊢
    rw [h, BitVec.toNat_add]
    omega

@[simp] theorem closeFrame_length (body : List Byte) : (closeFrame body).length = body.length + 1 := by
  simp [closeFrame]

@[simp] theorem enc16_length (v : Int) : (enc16 v).length = 2 := rfl

@[simp] theorem rpmBody_length (l r : Int) : (rpmBody l r).length = 12 := by
  simp [rpmBody]

end Sys2Proof.Machine
end

