-- ==== Sys2Proof/Laws/Decode.lean ====
section
/-!
SUPPORT. The fields of the words the encoder writes, the byte lanes, and the register map.
-/

namespace Sys2Proof

/-! ### Fields -/

@[simp] theorem cmdOp_cmdWord (op : Opcode) : cmdOp (cmdWord op) = op := by
  apply BitVec.eq_of_toNat_eq
  have := op.isLt
  simp [cmdOp, cmdWord]
  omega

/-- The RXD word as a number. -/
theorem rxdWord_toNat (nodata last : Bool) (data : Byte) :
    (rxdWord nodata last data).toNat = nodata.toNat * 512 + last.toNat * 256 + data.toNat := by
  have hd := data.isLt
  rw [rxdWord, BitVec.toNat_append, ← Nat.shiftLeft_add_eq_or_of_lt hd, BitVec.toNat_append,
    ← Nat.shiftLeft_add_eq_or_of_lt (BitVec.ofBool last).isLt, BitVec.toNat_append,
    ← Nat.shiftLeft_add_eq_or_of_lt (BitVec.ofBool nodata).isLt]
  cases nodata <;> cases last <;> simp [Nat.shiftLeft_eq]

@[simp] theorem rxdDataField_rxdWord (nodata last : Bool) (data : Byte) :
    rxdDataField (rxdWord nodata last data) = data := by
  apply BitVec.eq_of_toNat_eq
  have := data.isLt
  rw [rxdDataField, BitVec.extractLsb'_toNat, rxdWord_toNat]
  cases nodata <;> cases last <;> simp <;> omega

@[simp] theorem rxdLastField_rxdWord (nodata last : Bool) (data : Byte) :
    rxdLastField (rxdWord nodata last data) = last := by
  have := data.isLt
  rw [rxdLastField, BitVec.getLsbD, rxdWord_toNat, Nat.testBit_eq_decide_div_mod_eq]
  cases nodata <;> cases last <;> simp <;> omega

@[simp] theorem rxdNodataField_rxdWord (nodata last : Bool) (data : Byte) :
    rxdNodataField (rxdWord nodata last data) = nodata := by
  have := data.isLt
  rw [rxdNodataField, BitVec.getLsbD, rxdWord_toNat, Nat.testBit_eq_decide_div_mod_eq]
  cases nodata <;> cases last <;> simp <;> omega

/-! ### Byte lanes -/

/-- Four byte lanes as a number. -/
theorem wordOfLanes_toNat (b0 b1 b2 b3 : Byte) :
    (wordOfLanes b0 b1 b2 b3).toNat =
      b0.toNat + 256 * b1.toNat + 65536 * b2.toNat + 16777216 * b3.toNat := by
  rw [wordOfLanes, BitVec.toNat_append, ← Nat.shiftLeft_add_eq_or_of_lt b0.isLt, BitVec.toNat_append,
    ← Nat.shiftLeft_add_eq_or_of_lt b1.isLt, BitVec.toNat_append, ← Nat.shiftLeft_add_eq_or_of_lt b2.isLt]
  simp only [Nat.shiftLeft_eq]
  omega

theorem wordOfLanes_extract (v : Word) :
    wordOfLanes (v.extractLsb' 0 8) (v.extractLsb' 8 8) (v.extractLsb' 16 8) (v.extractLsb' 24 8) = v := by
  apply BitVec.eq_of_toNat_eq
  have := v.isLt
  rw [wordOfLanes_toNat]
  simp only [BitVec.extractLsb'_toNat, Nat.shiftRight_eq_div_pow]
  omega

/-- The decoder on the lanes of a word is the decoding of the word. -/
@[simp] theorem decode_cmd_lanes (v : Word) : decode .cmd (lanes v) = .ok (decodeCmd v) := by
  simp [decode, lanes, wordOfLanes_extract]

@[simp] theorem decode_rxd_lanes (v : Word) : decode .rxd (lanes v) = .ok (decodeRxd v) := by
  simp [decode, lanes, wordOfLanes_extract]

/-! ### The selector -/

theorem selectLayout_14 : selectLayout 14#8 = .l14 := rfl

theorem selectLayout_16 : selectLayout 16#8 = .l16 := rfl

theorem selectLayout_other (n : Byte) (h14 : n ≠ 14#8) (h16 : n ≠ 16#8) : selectLayout n = .unknown n := by
  simp [selectLayout, h14, h16]

/-! ### The register map -/

namespace Machine

/-- Each register is reached at its own offset. -/
@[simp] theorem regAt_regOffset (r : Reg) : regAt (regOffset r) = some r := by
  cases r <;> rfl

/-- No register is reached from 0x54 on. -/
theorem regAt_reserved (off : Offset) (h : 0x54 ≤ off.toNat) : regAt off = none := by
  have hx : (off.extractLsb' 2 6).toNat = off.toNat / 4 := by
    have := off.isLt
    simp [BitVec.extractLsb'_toNat, Nat.shiftRight_eq_div_pow]
    omega
  have hlt := off.isLt
  unfold regAt
  rw [hx]
  obtain ⟨k, hk⟩ : ∃ k, off.toNat / 4 = k + 21 := ⟨off.toNat / 4 - 21, by omega⟩
  split <;> first | rfl | omega

end Machine

end Sys2Proof
end

