-- ==== Sys2Proof/Laws/State.lean ====
section
/-!
SUPPORT. For each update of State, its fields: one lemma per field, so that no proof unfolds a record update.
-/

namespace Sys2Proof.Machine.State

variable (s : State)

/-! ### `setIgn` -/

@[simp] theorem setIgn_phase : s.setIgn.phase = s.phase := rfl
@[simp] theorem setIgn_txbuf : s.setIgn.txbuf = s.txbuf := rfl
@[simp] theorem setIgn_txidx : s.setIgn.txidx = s.txidx := rfl
@[simp] theorem setIgn_rxmode : s.setIgn.rxmode = s.rxmode := rfl
@[simp] theorem setIgn_rxbuf : s.setIgn.rxbuf = s.rxbuf := rfl
@[simp] theorem setIgn_vck : s.setIgn.vck = s.vck := rfl
@[simp] theorem setIgn_pend : s.setIgn.pend = s.pend := rfl
@[simp] theorem setIgn_cfg : s.setIgn.cfg = s.cfg := rfl
@[simp] theorem setIgn_rpmL : s.setIgn.rpmL = s.rpmL := rfl
@[simp] theorem setIgn_rpmR : s.setIgn.rpmR = s.rpmR := rfl
@[simp] theorem setIgn_done : s.setIgn.done = s.done := rfl
@[simp] theorem setIgn_err : s.setIgn.err = s.err := rfl
@[simp] theorem setIgn_errcode : s.setIgn.errcode = s.errcode := rfl
@[simp] theorem setIgn_ign : s.setIgn.ign = true := rfl
@[simp] theorem setIgn_lastop : s.setIgn.lastop = s.lastop := rfl
@[simp] theorem setIgn_errarg : s.setIgn.errarg = s.errarg := rfl
@[simp] theorem setIgn_ckres : s.setIgn.ckres = s.ckres := rfl
@[simp] theorem setIgn_tel : s.setIgn.tel = s.tel := rfl
@[simp] theorem setIgn_env : s.setIgn.env = s.env := rfl

/-! ### `accept` -/

@[simp] theorem accept_phase (op : Opcode) : (s.accept op).phase = s.phase := rfl
@[simp] theorem accept_txbuf (op : Opcode) : (s.accept op).txbuf = s.txbuf := rfl
@[simp] theorem accept_txidx (op : Opcode) : (s.accept op).txidx = s.txidx := rfl
@[simp] theorem accept_rxmode (op : Opcode) : (s.accept op).rxmode = s.rxmode := rfl
@[simp] theorem accept_rxbuf (op : Opcode) : (s.accept op).rxbuf = s.rxbuf := rfl
@[simp] theorem accept_vck (op : Opcode) : (s.accept op).vck = s.vck := rfl
@[simp] theorem accept_pend (op : Opcode) : (s.accept op).pend = s.pend := rfl
@[simp] theorem accept_cfg (op : Opcode) : (s.accept op).cfg = s.cfg := rfl
@[simp] theorem accept_rpmL (op : Opcode) : (s.accept op).rpmL = s.rpmL := rfl
@[simp] theorem accept_rpmR (op : Opcode) : (s.accept op).rpmR = s.rpmR := rfl
@[simp] theorem accept_done (op : Opcode) : (s.accept op).done = false := rfl
@[simp] theorem accept_err (op : Opcode) : (s.accept op).err = false := rfl
@[simp] theorem accept_errcode (op : Opcode) : (s.accept op).errcode = 0 := rfl
@[simp] theorem accept_ign (op : Opcode) : (s.accept op).ign = s.ign := rfl
@[simp] theorem accept_lastop (op : Opcode) : (s.accept op).lastop = op := rfl
@[simp] theorem accept_errarg (op : Opcode) : (s.accept op).errarg = 0 := rfl
@[simp] theorem accept_ckres (op : Opcode) : (s.accept op).ckres = 0 := rfl
@[simp] theorem accept_tel (op : Opcode) : (s.accept op).tel = none := rfl
@[simp] theorem accept_env (op : Opcode) : (s.accept op).env = s.env := rfl

/-! ### `startTx` -/

@[simp] theorem startTx_phase (f : List Byte) : (s.startTx f).phase = .tx := rfl
@[simp] theorem startTx_txbuf (f : List Byte) : (s.startTx f).txbuf = f := rfl
@[simp] theorem startTx_txidx (f : List Byte) : (s.startTx f).txidx = 0 := rfl
@[simp] theorem startTx_rxmode (f : List Byte) : (s.startTx f).rxmode = s.rxmode := rfl
@[simp] theorem startTx_rxbuf (f : List Byte) : (s.startTx f).rxbuf = s.rxbuf := rfl
@[simp] theorem startTx_vck (f : List Byte) : (s.startTx f).vck = s.vck := rfl
@[simp] theorem startTx_pend (f : List Byte) : (s.startTx f).pend = s.pend := rfl
@[simp] theorem startTx_cfg (f : List Byte) : (s.startTx f).cfg = s.cfg := rfl
@[simp] theorem startTx_rpmL (f : List Byte) : (s.startTx f).rpmL = s.rpmL := rfl
@[simp] theorem startTx_rpmR (f : List Byte) : (s.startTx f).rpmR = s.rpmR := rfl
@[simp] theorem startTx_done (f : List Byte) : (s.startTx f).done = s.done := rfl
@[simp] theorem startTx_err (f : List Byte) : (s.startTx f).err = s.err := rfl
@[simp] theorem startTx_errcode (f : List Byte) : (s.startTx f).errcode = s.errcode := rfl
@[simp] theorem startTx_ign (f : List Byte) : (s.startTx f).ign = s.ign := rfl
@[simp] theorem startTx_lastop (f : List Byte) : (s.startTx f).lastop = s.lastop := rfl
@[simp] theorem startTx_errarg (f : List Byte) : (s.startTx f).errarg = s.errarg := rfl
@[simp] theorem startTx_ckres (f : List Byte) : (s.startTx f).ckres = s.ckres := rfl
@[simp] theorem startTx_tel (f : List Byte) : (s.startTx f).tel = s.tel := rfl
@[simp] theorem startTx_env (f : List Byte) : (s.startTx f).env = s.env := rfl

/-! ### `openParse` -/

@[simp] theorem openParse_phase : s.openParse.phase = .rx := rfl
@[simp] theorem openParse_txbuf : s.openParse.txbuf = s.txbuf := rfl
@[simp] theorem openParse_txidx : s.openParse.txidx = s.txidx := rfl
@[simp] theorem openParse_rxmode : s.openParse.rxmode = .parse := rfl
@[simp] theorem openParse_rxbuf : s.openParse.rxbuf = [] := rfl
@[simp] theorem openParse_vck : s.openParse.vck = s.cfg.getLsbD 0 := rfl
@[simp] theorem openParse_pend : s.openParse.pend = s.pend := rfl
@[simp] theorem openParse_cfg : s.openParse.cfg = s.cfg := rfl
@[simp] theorem openParse_rpmL : s.openParse.rpmL = s.rpmL := rfl
@[simp] theorem openParse_rpmR : s.openParse.rpmR = s.rpmR := rfl
@[simp] theorem openParse_done : s.openParse.done = s.done := rfl
@[simp] theorem openParse_err : s.openParse.err = s.err := rfl
@[simp] theorem openParse_errcode : s.openParse.errcode = s.errcode := rfl
@[simp] theorem openParse_ign : s.openParse.ign = s.ign := rfl
@[simp] theorem openParse_lastop : s.openParse.lastop = s.lastop := rfl
@[simp] theorem openParse_errarg : s.openParse.errarg = s.errarg := rfl
@[simp] theorem openParse_ckres : s.openParse.ckres = s.ckres := rfl
@[simp] theorem openParse_tel : s.openParse.tel = s.tel := rfl
@[simp] theorem openParse_env : s.openParse.env = s.env := rfl

/-! ### `openCksum` -/

@[simp] theorem openCksum_phase : s.openCksum.phase = .rx := rfl
@[simp] theorem openCksum_txbuf : s.openCksum.txbuf = s.txbuf := rfl
@[simp] theorem openCksum_txidx : s.openCksum.txidx = s.txidx := rfl
@[simp] theorem openCksum_rxmode : s.openCksum.rxmode = .cksum := rfl
@[simp] theorem openCksum_rxbuf : s.openCksum.rxbuf = [] := rfl
@[simp] theorem openCksum_vck : s.openCksum.vck = s.vck := rfl
@[simp] theorem openCksum_pend : s.openCksum.pend = s.pend := rfl
@[simp] theorem openCksum_cfg : s.openCksum.cfg = s.cfg := rfl
@[simp] theorem openCksum_rpmL : s.openCksum.rpmL = s.rpmL := rfl
@[simp] theorem openCksum_rpmR : s.openCksum.rpmR = s.rpmR := rfl
@[simp] theorem openCksum_done : s.openCksum.done = s.done := rfl
@[simp] theorem openCksum_err : s.openCksum.err = s.err := rfl
@[simp] theorem openCksum_errcode : s.openCksum.errcode = s.errcode := rfl
@[simp] theorem openCksum_ign : s.openCksum.ign = s.ign := rfl
@[simp] theorem openCksum_lastop : s.openCksum.lastop = s.lastop := rfl
@[simp] theorem openCksum_errarg : s.openCksum.errarg = s.errarg := rfl
@[simp] theorem openCksum_ckres : s.openCksum.ckres = s.ckres := rfl
@[simp] theorem openCksum_tel : s.openCksum.tel = s.tel := rfl
@[simp] theorem openCksum_env : s.openCksum.env = s.env := rfl

/-! ### `appendRx` -/

@[simp] theorem appendRx_phase (b : Byte) : (s.appendRx b).phase = s.phase := rfl
@[simp] theorem appendRx_txbuf (b : Byte) : (s.appendRx b).txbuf = s.txbuf := rfl
@[simp] theorem appendRx_txidx (b : Byte) : (s.appendRx b).txidx = s.txidx := rfl
@[simp] theorem appendRx_rxmode (b : Byte) : (s.appendRx b).rxmode = s.rxmode := rfl
@[simp] theorem appendRx_rxbuf (b : Byte) : (s.appendRx b).rxbuf = s.rxbuf ++ [b] := rfl
@[simp] theorem appendRx_vck (b : Byte) : (s.appendRx b).vck = s.vck := rfl
@[simp] theorem appendRx_pend (b : Byte) : (s.appendRx b).pend = s.pend := rfl
@[simp] theorem appendRx_cfg (b : Byte) : (s.appendRx b).cfg = s.cfg := rfl
@[simp] theorem appendRx_rpmL (b : Byte) : (s.appendRx b).rpmL = s.rpmL := rfl
@[simp] theorem appendRx_rpmR (b : Byte) : (s.appendRx b).rpmR = s.rpmR := rfl
@[simp] theorem appendRx_done (b : Byte) : (s.appendRx b).done = s.done := rfl
@[simp] theorem appendRx_err (b : Byte) : (s.appendRx b).err = s.err := rfl
@[simp] theorem appendRx_errcode (b : Byte) : (s.appendRx b).errcode = s.errcode := rfl
@[simp] theorem appendRx_ign (b : Byte) : (s.appendRx b).ign = s.ign := rfl
@[simp] theorem appendRx_lastop (b : Byte) : (s.appendRx b).lastop = s.lastop := rfl
@[simp] theorem appendRx_errarg (b : Byte) : (s.appendRx b).errarg = s.errarg := rfl
@[simp] theorem appendRx_ckres (b : Byte) : (s.appendRx b).ckres = s.ckres := rfl
@[simp] theorem appendRx_tel (b : Byte) : (s.appendRx b).tel = s.tel := rfl
@[simp] theorem appendRx_env (b : Byte) : (s.appendRx b).env = s.env := rfl

/-! ### `finish` -/

@[simp] theorem finish_phase (op : Opcode) (r : Result) : (s.finish op r).phase = .fin := rfl
@[simp] theorem finish_txbuf (op : Opcode) (r : Result) : (s.finish op r).txbuf = s.txbuf := rfl
@[simp] theorem finish_txidx (op : Opcode) (r : Result) : (s.finish op r).txidx = s.txidx := rfl
@[simp] theorem finish_rxmode (op : Opcode) (r : Result) : (s.finish op r).rxmode = s.rxmode := rfl
@[simp] theorem finish_rxbuf (op : Opcode) (r : Result) : (s.finish op r).rxbuf = s.rxbuf := rfl
@[simp] theorem finish_vck (op : Opcode) (r : Result) : (s.finish op r).vck = s.vck := rfl
@[simp] theorem finish_pend (op : Opcode) (r : Result) : (s.finish op r).pend = some { op := op, result := r } := rfl
@[simp] theorem finish_cfg (op : Opcode) (r : Result) : (s.finish op r).cfg = s.cfg := rfl
@[simp] theorem finish_rpmL (op : Opcode) (r : Result) : (s.finish op r).rpmL = s.rpmL := rfl
@[simp] theorem finish_rpmR (op : Opcode) (r : Result) : (s.finish op r).rpmR = s.rpmR := rfl
@[simp] theorem finish_done (op : Opcode) (r : Result) : (s.finish op r).done = s.done := rfl
@[simp] theorem finish_err (op : Opcode) (r : Result) : (s.finish op r).err = s.err := rfl
@[simp] theorem finish_errcode (op : Opcode) (r : Result) : (s.finish op r).errcode = s.errcode := rfl
@[simp] theorem finish_ign (op : Opcode) (r : Result) : (s.finish op r).ign = s.ign := rfl
@[simp] theorem finish_lastop (op : Opcode) (r : Result) : (s.finish op r).lastop = s.lastop := rfl
@[simp] theorem finish_errarg (op : Opcode) (r : Result) : (s.finish op r).errarg = s.errarg := rfl
@[simp] theorem finish_ckres (op : Opcode) (r : Result) : (s.finish op r).ckres = s.ckres := rfl
@[simp] theorem finish_tel (op : Opcode) (r : Result) : (s.finish op r).tel = s.tel := rfl
@[simp] theorem finish_env (op : Opcode) (r : Result) : (s.finish op r).env = s.env := rfl

/-! ### `raiseError` -/

@[simp] theorem raiseError_phase (op : Opcode) (c : ErrCode) (a : Word) : (s.raiseError op c a).phase = .fin := rfl
@[simp] theorem raiseError_txbuf (op : Opcode) (c : ErrCode) (a : Word) : (s.raiseError op c a).txbuf = s.txbuf := rfl
@[simp] theorem raiseError_txidx (op : Opcode) (c : ErrCode) (a : Word) : (s.raiseError op c a).txidx = s.txidx := rfl
@[simp] theorem raiseError_rxmode (op : Opcode) (c : ErrCode) (a : Word) : (s.raiseError op c a).rxmode = s.rxmode := rfl
@[simp] theorem raiseError_rxbuf (op : Opcode) (c : ErrCode) (a : Word) : (s.raiseError op c a).rxbuf = s.rxbuf := rfl
@[simp] theorem raiseError_vck (op : Opcode) (c : ErrCode) (a : Word) : (s.raiseError op c a).vck = s.vck := rfl
@[simp] theorem raiseError_pend (op : Opcode) (c : ErrCode) (a : Word) : (s.raiseError op c a).pend = some { op := op, result := .err c a } := rfl
@[simp] theorem raiseError_cfg (op : Opcode) (c : ErrCode) (a : Word) : (s.raiseError op c a).cfg = s.cfg := rfl
@[simp] theorem raiseError_rpmL (op : Opcode) (c : ErrCode) (a : Word) : (s.raiseError op c a).rpmL = s.rpmL := rfl
@[simp] theorem raiseError_rpmR (op : Opcode) (c : ErrCode) (a : Word) : (s.raiseError op c a).rpmR = s.rpmR := rfl
@[simp] theorem raiseError_done (op : Opcode) (c : ErrCode) (a : Word) : (s.raiseError op c a).done = s.done := rfl
@[simp] theorem raiseError_err (op : Opcode) (c : ErrCode) (a : Word) : (s.raiseError op c a).err = s.err := rfl
@[simp] theorem raiseError_errcode (op : Opcode) (c : ErrCode) (a : Word) : (s.raiseError op c a).errcode = s.errcode := rfl
@[simp] theorem raiseError_ign (op : Opcode) (c : ErrCode) (a : Word) : (s.raiseError op c a).ign = s.ign := rfl
@[simp] theorem raiseError_lastop (op : Opcode) (c : ErrCode) (a : Word) : (s.raiseError op c a).lastop = s.lastop := rfl
@[simp] theorem raiseError_errarg (op : Opcode) (c : ErrCode) (a : Word) : (s.raiseError op c a).errarg = s.errarg := rfl
@[simp] theorem raiseError_ckres (op : Opcode) (c : ErrCode) (a : Word) : (s.raiseError op c a).ckres = s.ckres := rfl
@[simp] theorem raiseError_tel (op : Opcode) (c : ErrCode) (a : Word) : (s.raiseError op c a).tel = s.tel := rfl
@[simp] theorem raiseError_env (op : Opcode) (c : ErrCode) (a : Word) : (s.raiseError op c a).env = s.env := rfl

/-! ### `settle` -/

@[simp] theorem settle_phase : s.settle.phase = .idle := rfl
@[simp] theorem settle_txbuf : s.settle.txbuf = [] := rfl
@[simp] theorem settle_txidx : s.settle.txidx = 0 := rfl
@[simp] theorem settle_rxmode : s.settle.rxmode = .none := rfl
@[simp] theorem settle_rxbuf : s.settle.rxbuf = [] := rfl
@[simp] theorem settle_vck : s.settle.vck = false := rfl
@[simp] theorem settle_pend : s.settle.pend = none := rfl
@[simp] theorem settle_cfg : s.settle.cfg = s.cfg := rfl
@[simp] theorem settle_rpmL : s.settle.rpmL = s.rpmL := rfl
@[simp] theorem settle_rpmR : s.settle.rpmR = s.rpmR := rfl
@[simp] theorem settle_done : s.settle.done = true := rfl
@[simp] theorem settle_err : s.settle.err = s.err := rfl
@[simp] theorem settle_errcode : s.settle.errcode = s.errcode := rfl
@[simp] theorem settle_ign : s.settle.ign = s.ign := rfl
@[simp] theorem settle_lastop : s.settle.lastop = s.lastop := rfl
@[simp] theorem settle_errarg : s.settle.errarg = s.errarg := rfl
@[simp] theorem settle_ckres : s.settle.ckres = s.ckres := rfl
@[simp] theorem settle_tel : s.settle.tel = s.tel := rfl
@[simp] theorem settle_env : s.settle.env = s.env := rfl

/-! ### `noError` -/

@[simp] theorem noError_phase : s.noError.phase = s.phase := rfl
@[simp] theorem noError_txbuf : s.noError.txbuf = s.txbuf := rfl
@[simp] theorem noError_txidx : s.noError.txidx = s.txidx := rfl
@[simp] theorem noError_rxmode : s.noError.rxmode = s.rxmode := rfl
@[simp] theorem noError_rxbuf : s.noError.rxbuf = s.rxbuf := rfl
@[simp] theorem noError_vck : s.noError.vck = s.vck := rfl
@[simp] theorem noError_pend : s.noError.pend = s.pend := rfl
@[simp] theorem noError_cfg : s.noError.cfg = s.cfg := rfl
@[simp] theorem noError_rpmL : s.noError.rpmL = s.rpmL := rfl
@[simp] theorem noError_rpmR : s.noError.rpmR = s.rpmR := rfl
@[simp] theorem noError_done : s.noError.done = s.done := rfl
@[simp] theorem noError_err : s.noError.err = false := rfl
@[simp] theorem noError_errcode : s.noError.errcode = 0 := rfl
@[simp] theorem noError_ign : s.noError.ign = s.ign := rfl
@[simp] theorem noError_lastop : s.noError.lastop = s.lastop := rfl
@[simp] theorem noError_errarg : s.noError.errarg = 0 := rfl
@[simp] theorem noError_ckres : s.noError.ckres = s.ckres := rfl
@[simp] theorem noError_tel : s.noError.tel = s.tel := rfl
@[simp] theorem noError_env : s.noError.env = s.env := rfl

/-! ### `recordError` -/

@[simp] theorem recordError_phase (c : ErrCode) (a : Word) : (s.recordError c a).phase = s.phase := rfl
@[simp] theorem recordError_txbuf (c : ErrCode) (a : Word) : (s.recordError c a).txbuf = s.txbuf := rfl
@[simp] theorem recordError_txidx (c : ErrCode) (a : Word) : (s.recordError c a).txidx = s.txidx := rfl
@[simp] theorem recordError_rxmode (c : ErrCode) (a : Word) : (s.recordError c a).rxmode = s.rxmode := rfl
@[simp] theorem recordError_rxbuf (c : ErrCode) (a : Word) : (s.recordError c a).rxbuf = s.rxbuf := rfl
@[simp] theorem recordError_vck (c : ErrCode) (a : Word) : (s.recordError c a).vck = s.vck := rfl
@[simp] theorem recordError_pend (c : ErrCode) (a : Word) : (s.recordError c a).pend = s.pend := rfl
@[simp] theorem recordError_cfg (c : ErrCode) (a : Word) : (s.recordError c a).cfg = s.cfg := rfl
@[simp] theorem recordError_rpmL (c : ErrCode) (a : Word) : (s.recordError c a).rpmL = s.rpmL := rfl
@[simp] theorem recordError_rpmR (c : ErrCode) (a : Word) : (s.recordError c a).rpmR = s.rpmR := rfl
@[simp] theorem recordError_done (c : ErrCode) (a : Word) : (s.recordError c a).done = s.done := rfl
@[simp] theorem recordError_err (c : ErrCode) (a : Word) : (s.recordError c a).err = true := rfl
@[simp] theorem recordError_errcode (c : ErrCode) (a : Word) : (s.recordError c a).errcode = c.code := rfl
@[simp] theorem recordError_ign (c : ErrCode) (a : Word) : (s.recordError c a).ign = s.ign := rfl
@[simp] theorem recordError_lastop (c : ErrCode) (a : Word) : (s.recordError c a).lastop = s.lastop := rfl
@[simp] theorem recordError_errarg (c : ErrCode) (a : Word) : (s.recordError c a).errarg = a := rfl
@[simp] theorem recordError_ckres (c : ErrCode) (a : Word) : (s.recordError c a).ckres = s.ckres := rfl
@[simp] theorem recordError_tel (c : ErrCode) (a : Word) : (s.recordError c a).tel = s.tel := rfl
@[simp] theorem recordError_env (c : ErrCode) (a : Word) : (s.recordError c a).env = s.env := rfl

/-! ### `setTel` -/

@[simp] theorem setTel_phase (t : Telemetry) : (s.setTel t).phase = s.phase := rfl
@[simp] theorem setTel_txbuf (t : Telemetry) : (s.setTel t).txbuf = s.txbuf := rfl
@[simp] theorem setTel_txidx (t : Telemetry) : (s.setTel t).txidx = s.txidx := rfl
@[simp] theorem setTel_rxmode (t : Telemetry) : (s.setTel t).rxmode = s.rxmode := rfl
@[simp] theorem setTel_rxbuf (t : Telemetry) : (s.setTel t).rxbuf = s.rxbuf := rfl
@[simp] theorem setTel_vck (t : Telemetry) : (s.setTel t).vck = s.vck := rfl
@[simp] theorem setTel_pend (t : Telemetry) : (s.setTel t).pend = s.pend := rfl
@[simp] theorem setTel_cfg (t : Telemetry) : (s.setTel t).cfg = s.cfg := rfl
@[simp] theorem setTel_rpmL (t : Telemetry) : (s.setTel t).rpmL = s.rpmL := rfl
@[simp] theorem setTel_rpmR (t : Telemetry) : (s.setTel t).rpmR = s.rpmR := rfl
@[simp] theorem setTel_done (t : Telemetry) : (s.setTel t).done = s.done := rfl
@[simp] theorem setTel_err (t : Telemetry) : (s.setTel t).err = s.err := rfl
@[simp] theorem setTel_errcode (t : Telemetry) : (s.setTel t).errcode = s.errcode := rfl
@[simp] theorem setTel_ign (t : Telemetry) : (s.setTel t).ign = s.ign := rfl
@[simp] theorem setTel_lastop (t : Telemetry) : (s.setTel t).lastop = s.lastop := rfl
@[simp] theorem setTel_errarg (t : Telemetry) : (s.setTel t).errarg = s.errarg := rfl
@[simp] theorem setTel_ckres (t : Telemetry) : (s.setTel t).ckres = s.ckres := rfl
@[simp] theorem setTel_tel (t : Telemetry) : (s.setTel t).tel = some t := rfl
@[simp] theorem setTel_env (t : Telemetry) : (s.setTel t).env = s.env := rfl

/-! ### `setCkres` -/

@[simp] theorem setCkres_phase (ck : Byte) : (s.setCkres ck).phase = s.phase := rfl
@[simp] theorem setCkres_txbuf (ck : Byte) : (s.setCkres ck).txbuf = s.txbuf := rfl
@[simp] theorem setCkres_txidx (ck : Byte) : (s.setCkres ck).txidx = s.txidx := rfl
@[simp] theorem setCkres_rxmode (ck : Byte) : (s.setCkres ck).rxmode = s.rxmode := rfl
@[simp] theorem setCkres_rxbuf (ck : Byte) : (s.setCkres ck).rxbuf = s.rxbuf := rfl
@[simp] theorem setCkres_vck (ck : Byte) : (s.setCkres ck).vck = s.vck := rfl
@[simp] theorem setCkres_pend (ck : Byte) : (s.setCkres ck).pend = s.pend := rfl
@[simp] theorem setCkres_cfg (ck : Byte) : (s.setCkres ck).cfg = s.cfg := rfl
@[simp] theorem setCkres_rpmL (ck : Byte) : (s.setCkres ck).rpmL = s.rpmL := rfl
@[simp] theorem setCkres_rpmR (ck : Byte) : (s.setCkres ck).rpmR = s.rpmR := rfl
@[simp] theorem setCkres_done (ck : Byte) : (s.setCkres ck).done = s.done := rfl
@[simp] theorem setCkres_err (ck : Byte) : (s.setCkres ck).err = s.err := rfl
@[simp] theorem setCkres_errcode (ck : Byte) : (s.setCkres ck).errcode = s.errcode := rfl
@[simp] theorem setCkres_ign (ck : Byte) : (s.setCkres ck).ign = s.ign := rfl
@[simp] theorem setCkres_lastop (ck : Byte) : (s.setCkres ck).lastop = s.lastop := rfl
@[simp] theorem setCkres_errarg (ck : Byte) : (s.setCkres ck).errarg = s.errarg := rfl
@[simp] theorem setCkres_ckres (ck : Byte) : (s.setCkres ck).ckres = ck := rfl
@[simp] theorem setCkres_tel (ck : Byte) : (s.setCkres ck).tel = s.tel := rfl
@[simp] theorem setCkres_env (ck : Byte) : (s.setCkres ck).env = s.env := rfl

/-! ### `emit` -/

@[simp] theorem emit_phase (b : Byte) (l : Bool) : (s.emit b l).phase = s.phase := rfl
@[simp] theorem emit_txbuf (b : Byte) (l : Bool) : (s.emit b l).txbuf = s.txbuf := rfl
@[simp] theorem emit_txidx (b : Byte) (l : Bool) : (s.emit b l).txidx = s.txidx + 1 := rfl
@[simp] theorem emit_rxmode (b : Byte) (l : Bool) : (s.emit b l).rxmode = s.rxmode := rfl
@[simp] theorem emit_rxbuf (b : Byte) (l : Bool) : (s.emit b l).rxbuf = s.rxbuf := rfl
@[simp] theorem emit_vck (b : Byte) (l : Bool) : (s.emit b l).vck = s.vck := rfl
@[simp] theorem emit_pend (b : Byte) (l : Bool) : (s.emit b l).pend = s.pend := rfl
@[simp] theorem emit_cfg (b : Byte) (l : Bool) : (s.emit b l).cfg = s.cfg := rfl
@[simp] theorem emit_rpmL (b : Byte) (l : Bool) : (s.emit b l).rpmL = s.rpmL := rfl
@[simp] theorem emit_rpmR (b : Byte) (l : Bool) : (s.emit b l).rpmR = s.rpmR := rfl
@[simp] theorem emit_done (b : Byte) (l : Bool) : (s.emit b l).done = s.done := rfl
@[simp] theorem emit_err (b : Byte) (l : Bool) : (s.emit b l).err = s.err := rfl
@[simp] theorem emit_errcode (b : Byte) (l : Bool) : (s.emit b l).errcode = s.errcode := rfl
@[simp] theorem emit_ign (b : Byte) (l : Bool) : (s.emit b l).ign = s.ign := rfl
@[simp] theorem emit_lastop (b : Byte) (l : Bool) : (s.emit b l).lastop = s.lastop := rfl
@[simp] theorem emit_errarg (b : Byte) (l : Bool) : (s.emit b l).errarg = s.errarg := rfl
@[simp] theorem emit_ckres (b : Byte) (l : Bool) : (s.emit b l).ckres = s.ckres := rfl
@[simp] theorem emit_tel (b : Byte) (l : Bool) : (s.emit b l).tel = s.tel := rfl
@[simp] theorem emit_env (b : Byte) (l : Bool) : (s.emit b l).env = { s.env with sent := s.env.sent ++ [(b, l)] } := rfl

/-! ### `writeCfg` -/

@[simp] theorem writeCfg_phase (v : Word) : (s.writeCfg v).phase = s.phase := rfl
@[simp] theorem writeCfg_txbuf (v : Word) : (s.writeCfg v).txbuf = s.txbuf := rfl
@[simp] theorem writeCfg_txidx (v : Word) : (s.writeCfg v).txidx = s.txidx := rfl
@[simp] theorem writeCfg_rxmode (v : Word) : (s.writeCfg v).rxmode = s.rxmode := rfl
@[simp] theorem writeCfg_rxbuf (v : Word) : (s.writeCfg v).rxbuf = s.rxbuf := rfl
@[simp] theorem writeCfg_vck (v : Word) : (s.writeCfg v).vck = s.vck := rfl
@[simp] theorem writeCfg_pend (v : Word) : (s.writeCfg v).pend = s.pend := rfl
@[simp] theorem writeCfg_cfg (v : Word) : (s.writeCfg v).cfg = (v.extractLsb' 0 1).setWidth 32 := rfl
@[simp] theorem writeCfg_rpmL (v : Word) : (s.writeCfg v).rpmL = s.rpmL := rfl
@[simp] theorem writeCfg_rpmR (v : Word) : (s.writeCfg v).rpmR = s.rpmR := rfl
@[simp] theorem writeCfg_done (v : Word) : (s.writeCfg v).done = s.done := rfl
@[simp] theorem writeCfg_err (v : Word) : (s.writeCfg v).err = s.err := rfl
@[simp] theorem writeCfg_errcode (v : Word) : (s.writeCfg v).errcode = s.errcode := rfl
@[simp] theorem writeCfg_ign (v : Word) : (s.writeCfg v).ign = s.ign := rfl
@[simp] theorem writeCfg_lastop (v : Word) : (s.writeCfg v).lastop = s.lastop := rfl
@[simp] theorem writeCfg_errarg (v : Word) : (s.writeCfg v).errarg = s.errarg := rfl
@[simp] theorem writeCfg_ckres (v : Word) : (s.writeCfg v).ckres = s.ckres := rfl
@[simp] theorem writeCfg_tel (v : Word) : (s.writeCfg v).tel = s.tel := rfl
@[simp] theorem writeCfg_env (v : Word) : (s.writeCfg v).env = s.env := rfl

/-! ### `writeRpmL` -/

@[simp] theorem writeRpmL_phase (v : Word) : (s.writeRpmL v).phase = s.phase := rfl
@[simp] theorem writeRpmL_txbuf (v : Word) : (s.writeRpmL v).txbuf = s.txbuf := rfl
@[simp] theorem writeRpmL_txidx (v : Word) : (s.writeRpmL v).txidx = s.txidx := rfl
@[simp] theorem writeRpmL_rxmode (v : Word) : (s.writeRpmL v).rxmode = s.rxmode := rfl
@[simp] theorem writeRpmL_rxbuf (v : Word) : (s.writeRpmL v).rxbuf = s.rxbuf := rfl
@[simp] theorem writeRpmL_vck (v : Word) : (s.writeRpmL v).vck = s.vck := rfl
@[simp] theorem writeRpmL_pend (v : Word) : (s.writeRpmL v).pend = s.pend := rfl
@[simp] theorem writeRpmL_cfg (v : Word) : (s.writeRpmL v).cfg = s.cfg := rfl
@[simp] theorem writeRpmL_rpmL (v : Word) : (s.writeRpmL v).rpmL = v := rfl
@[simp] theorem writeRpmL_rpmR (v : Word) : (s.writeRpmL v).rpmR = s.rpmR := rfl
@[simp] theorem writeRpmL_done (v : Word) : (s.writeRpmL v).done = s.done := rfl
@[simp] theorem writeRpmL_err (v : Word) : (s.writeRpmL v).err = s.err := rfl
@[simp] theorem writeRpmL_errcode (v : Word) : (s.writeRpmL v).errcode = s.errcode := rfl
@[simp] theorem writeRpmL_ign (v : Word) : (s.writeRpmL v).ign = s.ign := rfl
@[simp] theorem writeRpmL_lastop (v : Word) : (s.writeRpmL v).lastop = s.lastop := rfl
@[simp] theorem writeRpmL_errarg (v : Word) : (s.writeRpmL v).errarg = s.errarg := rfl
@[simp] theorem writeRpmL_ckres (v : Word) : (s.writeRpmL v).ckres = s.ckres := rfl
@[simp] theorem writeRpmL_tel (v : Word) : (s.writeRpmL v).tel = s.tel := rfl
@[simp] theorem writeRpmL_env (v : Word) : (s.writeRpmL v).env = s.env := rfl

/-! ### `writeRpmR` -/

@[simp] theorem writeRpmR_phase (v : Word) : (s.writeRpmR v).phase = s.phase := rfl
@[simp] theorem writeRpmR_txbuf (v : Word) : (s.writeRpmR v).txbuf = s.txbuf := rfl
@[simp] theorem writeRpmR_txidx (v : Word) : (s.writeRpmR v).txidx = s.txidx := rfl
@[simp] theorem writeRpmR_rxmode (v : Word) : (s.writeRpmR v).rxmode = s.rxmode := rfl
@[simp] theorem writeRpmR_rxbuf (v : Word) : (s.writeRpmR v).rxbuf = s.rxbuf := rfl
@[simp] theorem writeRpmR_vck (v : Word) : (s.writeRpmR v).vck = s.vck := rfl
@[simp] theorem writeRpmR_pend (v : Word) : (s.writeRpmR v).pend = s.pend := rfl
@[simp] theorem writeRpmR_cfg (v : Word) : (s.writeRpmR v).cfg = s.cfg := rfl
@[simp] theorem writeRpmR_rpmL (v : Word) : (s.writeRpmR v).rpmL = s.rpmL := rfl
@[simp] theorem writeRpmR_rpmR (v : Word) : (s.writeRpmR v).rpmR = v := rfl
@[simp] theorem writeRpmR_done (v : Word) : (s.writeRpmR v).done = s.done := rfl
@[simp] theorem writeRpmR_err (v : Word) : (s.writeRpmR v).err = s.err := rfl
@[simp] theorem writeRpmR_errcode (v : Word) : (s.writeRpmR v).errcode = s.errcode := rfl
@[simp] theorem writeRpmR_ign (v : Word) : (s.writeRpmR v).ign = s.ign := rfl
@[simp] theorem writeRpmR_lastop (v : Word) : (s.writeRpmR v).lastop = s.lastop := rfl
@[simp] theorem writeRpmR_errarg (v : Word) : (s.writeRpmR v).errarg = s.errarg := rfl
@[simp] theorem writeRpmR_ckres (v : Word) : (s.writeRpmR v).ckres = s.ckres := rfl
@[simp] theorem writeRpmR_tel (v : Word) : (s.writeRpmR v).tel = s.tel := rfl
@[simp] theorem writeRpmR_env (v : Word) : (s.writeRpmR v).env = s.env := rfl

/-! ### `hostRead` -/

@[simp] theorem hostRead_phase (off : Offset) (v : Word) (n : Nat) : (s.hostRead off v n).phase = s.phase := rfl
@[simp] theorem hostRead_txbuf (off : Offset) (v : Word) (n : Nat) : (s.hostRead off v n).txbuf = s.txbuf := rfl
@[simp] theorem hostRead_txidx (off : Offset) (v : Word) (n : Nat) : (s.hostRead off v n).txidx = s.txidx := rfl
@[simp] theorem hostRead_rxmode (off : Offset) (v : Word) (n : Nat) : (s.hostRead off v n).rxmode = s.rxmode := rfl
@[simp] theorem hostRead_rxbuf (off : Offset) (v : Word) (n : Nat) : (s.hostRead off v n).rxbuf = s.rxbuf := rfl
@[simp] theorem hostRead_vck (off : Offset) (v : Word) (n : Nat) : (s.hostRead off v n).vck = s.vck := rfl
@[simp] theorem hostRead_pend (off : Offset) (v : Word) (n : Nat) : (s.hostRead off v n).pend = s.pend := rfl
@[simp] theorem hostRead_cfg (off : Offset) (v : Word) (n : Nat) : (s.hostRead off v n).cfg = s.cfg := rfl
@[simp] theorem hostRead_rpmL (off : Offset) (v : Word) (n : Nat) : (s.hostRead off v n).rpmL = s.rpmL := rfl
@[simp] theorem hostRead_rpmR (off : Offset) (v : Word) (n : Nat) : (s.hostRead off v n).rpmR = s.rpmR := rfl
@[simp] theorem hostRead_done (off : Offset) (v : Word) (n : Nat) : (s.hostRead off v n).done = s.done := rfl
@[simp] theorem hostRead_err (off : Offset) (v : Word) (n : Nat) : (s.hostRead off v n).err = s.err := rfl
@[simp] theorem hostRead_errcode (off : Offset) (v : Word) (n : Nat) : (s.hostRead off v n).errcode = s.errcode := rfl
@[simp] theorem hostRead_ign (off : Offset) (v : Word) (n : Nat) : (s.hostRead off v n).ign = s.ign := rfl
@[simp] theorem hostRead_lastop (off : Offset) (v : Word) (n : Nat) : (s.hostRead off v n).lastop = s.lastop := rfl
@[simp] theorem hostRead_errarg (off : Offset) (v : Word) (n : Nat) : (s.hostRead off v n).errarg = s.errarg := rfl
@[simp] theorem hostRead_ckres (off : Offset) (v : Word) (n : Nat) : (s.hostRead off v n).ckres = s.ckres := rfl
@[simp] theorem hostRead_tel (off : Offset) (v : Word) (n : Nat) : (s.hostRead off v n).tel = s.tel := rfl
@[simp] theorem hostRead_env (off : Offset) (v : Word) (n : Nat) : (s.hostRead off v n).env = { s.env with reads := s.env.reads ++ [(off, v)], hpc := n } := rfl

/-! ### `hostNext` -/

@[simp] theorem hostNext_phase : s.hostNext.phase = s.phase := rfl
@[simp] theorem hostNext_txbuf : s.hostNext.txbuf = s.txbuf := rfl
@[simp] theorem hostNext_txidx : s.hostNext.txidx = s.txidx := rfl
@[simp] theorem hostNext_rxmode : s.hostNext.rxmode = s.rxmode := rfl
@[simp] theorem hostNext_rxbuf : s.hostNext.rxbuf = s.rxbuf := rfl
@[simp] theorem hostNext_vck : s.hostNext.vck = s.vck := rfl
@[simp] theorem hostNext_pend : s.hostNext.pend = s.pend := rfl
@[simp] theorem hostNext_cfg : s.hostNext.cfg = s.cfg := rfl
@[simp] theorem hostNext_rpmL : s.hostNext.rpmL = s.rpmL := rfl
@[simp] theorem hostNext_rpmR : s.hostNext.rpmR = s.rpmR := rfl
@[simp] theorem hostNext_done : s.hostNext.done = s.done := rfl
@[simp] theorem hostNext_err : s.hostNext.err = s.err := rfl
@[simp] theorem hostNext_errcode : s.hostNext.errcode = s.errcode := rfl
@[simp] theorem hostNext_ign : s.hostNext.ign = s.ign := rfl
@[simp] theorem hostNext_lastop : s.hostNext.lastop = s.lastop := rfl
@[simp] theorem hostNext_errarg : s.hostNext.errarg = s.errarg := rfl
@[simp] theorem hostNext_ckres : s.hostNext.ckres = s.ckres := rfl
@[simp] theorem hostNext_tel : s.hostNext.tel = s.tel := rfl
@[simp] theorem hostNext_env : s.hostNext.env = { s.env with hpc := s.env.hpc + 1 } := rfl

/-! ### `takeTurn` -/

@[simp] theorem takeTurn_phase : s.takeTurn.phase = s.phase := rfl
@[simp] theorem takeTurn_txbuf : s.takeTurn.txbuf = s.txbuf := rfl
@[simp] theorem takeTurn_txidx : s.takeTurn.txidx = s.txidx := rfl
@[simp] theorem takeTurn_rxmode : s.takeTurn.rxmode = s.rxmode := rfl
@[simp] theorem takeTurn_rxbuf : s.takeTurn.rxbuf = s.rxbuf := rfl
@[simp] theorem takeTurn_vck : s.takeTurn.vck = s.vck := rfl
@[simp] theorem takeTurn_pend : s.takeTurn.pend = s.pend := rfl
@[simp] theorem takeTurn_cfg : s.takeTurn.cfg = s.cfg := rfl
@[simp] theorem takeTurn_rpmL : s.takeTurn.rpmL = s.rpmL := rfl
@[simp] theorem takeTurn_rpmR : s.takeTurn.rpmR = s.rpmR := rfl
@[simp] theorem takeTurn_done : s.takeTurn.done = s.done := rfl
@[simp] theorem takeTurn_err : s.takeTurn.err = s.err := rfl
@[simp] theorem takeTurn_errcode : s.takeTurn.errcode = s.errcode := rfl
@[simp] theorem takeTurn_ign : s.takeTurn.ign = s.ign := rfl
@[simp] theorem takeTurn_lastop : s.takeTurn.lastop = s.lastop := rfl
@[simp] theorem takeTurn_errarg : s.takeTurn.errarg = s.errarg := rfl
@[simp] theorem takeTurn_ckres : s.takeTurn.ckres = s.ckres := rfl
@[simp] theorem takeTurn_tel : s.takeTurn.tel = s.tel := rfl
@[simp] theorem takeTurn_env : s.takeTurn.env = { s.env with sched := s.env.sched.tail } := rfl

/-! ### `doReset` -/

@[simp] theorem doReset_phase : s.doReset.phase = .idle := rfl
@[simp] theorem doReset_txbuf : s.doReset.txbuf = [] := rfl
@[simp] theorem doReset_txidx : s.doReset.txidx = 0 := rfl
@[simp] theorem doReset_rxmode : s.doReset.rxmode = .none := rfl
@[simp] theorem doReset_rxbuf : s.doReset.rxbuf = [] := rfl
@[simp] theorem doReset_vck : s.doReset.vck = false := rfl
@[simp] theorem doReset_pend : s.doReset.pend = none := rfl
@[simp] theorem doReset_cfg : s.doReset.cfg = 0 := rfl
@[simp] theorem doReset_rpmL : s.doReset.rpmL = 0 := rfl
@[simp] theorem doReset_rpmR : s.doReset.rpmR = 0 := rfl
@[simp] theorem doReset_done : s.doReset.done = false := rfl
@[simp] theorem doReset_err : s.doReset.err = false := rfl
@[simp] theorem doReset_errcode : s.doReset.errcode = 0 := rfl
@[simp] theorem doReset_ign : s.doReset.ign = false := rfl
@[simp] theorem doReset_lastop : s.doReset.lastop = 0 := rfl
@[simp] theorem doReset_errarg : s.doReset.errarg = 0 := rfl
@[simp] theorem doReset_ckres : s.doReset.ckres = 0 := rfl
@[simp] theorem doReset_tel : s.doReset.tel = none := rfl
@[simp] theorem doReset_env : s.doReset.env = s.env := rfl

/-! ### `writeStatus`: the one update that may change nothing -/

@[simp] theorem writeStatus_phase (v : Word) : (s.writeStatus v).phase = s.phase := by
  unfold writeStatus; split <;> rfl
@[simp] theorem writeStatus_txbuf (v : Word) : (s.writeStatus v).txbuf = s.txbuf := by
  unfold writeStatus; split <;> rfl
@[simp] theorem writeStatus_txidx (v : Word) : (s.writeStatus v).txidx = s.txidx := by
  unfold writeStatus; split <;> rfl
@[simp] theorem writeStatus_rxmode (v : Word) : (s.writeStatus v).rxmode = s.rxmode := by
  unfold writeStatus; split <;> rfl
@[simp] theorem writeStatus_rxbuf (v : Word) : (s.writeStatus v).rxbuf = s.rxbuf := by
  unfold writeStatus; split <;> rfl
@[simp] theorem writeStatus_vck (v : Word) : (s.writeStatus v).vck = s.vck := by
  unfold writeStatus; split <;> rfl
@[simp] theorem writeStatus_pend (v : Word) : (s.writeStatus v).pend = s.pend := by
  unfold writeStatus; split <;> rfl
@[simp] theorem writeStatus_cfg (v : Word) : (s.writeStatus v).cfg = s.cfg := by
  unfold writeStatus; split <;> rfl
@[simp] theorem writeStatus_rpmL (v : Word) : (s.writeStatus v).rpmL = s.rpmL := by
  unfold writeStatus; split <;> rfl
@[simp] theorem writeStatus_rpmR (v : Word) : (s.writeStatus v).rpmR = s.rpmR := by
  unfold writeStatus; split <;> rfl
@[simp] theorem writeStatus_done (v : Word) : (s.writeStatus v).done = s.done := by
  unfold writeStatus; split <;> rfl
@[simp] theorem writeStatus_err (v : Word) : (s.writeStatus v).err = s.err := by
  unfold writeStatus; split <;> rfl
@[simp] theorem writeStatus_errcode (v : Word) : (s.writeStatus v).errcode = s.errcode := by
  unfold writeStatus; split <;> rfl
@[simp] theorem writeStatus_ign (v : Word) : (s.writeStatus v).ign = (s.ign && !v.getLsbD 3) := by
  unfold writeStatus; split <;> simp_all
@[simp] theorem writeStatus_lastop (v : Word) : (s.writeStatus v).lastop = s.lastop := by
  unfold writeStatus; split <;> rfl
@[simp] theorem writeStatus_errarg (v : Word) : (s.writeStatus v).errarg = s.errarg := by
  unfold writeStatus; split <;> rfl
@[simp] theorem writeStatus_ckres (v : Word) : (s.writeStatus v).ckres = s.ckres := by
  unfold writeStatus; split <;> rfl
@[simp] theorem writeStatus_tel (v : Word) : (s.writeStatus v).tel = s.tel := by
  unfold writeStatus; split <;> rfl
@[simp] theorem writeStatus_env (v : Word) : (s.writeStatus v).env = s.env := by
  unfold writeStatus; split <;> rfl

end Sys2Proof.Machine.State
end

