-- ==== Sys2Proof/Laws/Ops.lean ====
section
/-!
SUPPORT. What each shared operation can do, said once: later proofs cite these and do not unfold the operations.
-/

namespace Sys2Proof.Machine

variable {s t : State}

/-! ### Accepting and delivering -/

theorem command_idle (op : Opcode) (start : State → State) (h : s.phase = .idle) :
    s.command op start = start (s.accept op) := by
  simp [State.command, h]

theorem command_busy (op : Opcode) (start : State → State) (h : s.phase ≠ .idle) :
    s.command op start = s.setIgn := by
  simp [State.command, h]

theorem deliver_rx (act : State → Outcome) (h : s.phase = .rx) : s.deliver act = act s := by
  simp [State.deliver, h]

theorem deliver_elsewhere (act : State → Outcome) (h : s.phase ≠ .rx) : s.deliver act = .next s.setIgn := by
  simp [State.deliver, h]

/-- What RPM_SET does after its acceptance: one of the two, by the range test. -/
theorem startRpm_cases (s : State) :
    ((rpmOutOfRange (setpoint s.rpmL) || rpmOutOfRange (setpoint s.rpmR)) = true ∧
      s.startRpm = s.raiseError 0x3 .invalidRpmRange (rangeArg (setpoint s.rpmL) (setpoint s.rpmR))) ∨
    (rpmOutOfRange (setpoint s.rpmL) = false ∧ rpmOutOfRange (setpoint s.rpmR) = false ∧
      s.startRpm = s.startTx (rpmFrame (setpoint s.rpmL) (setpoint s.rpmR))) := by
  by_cases h : (rpmOutOfRange (setpoint s.rpmL) || rpmOutOfRange (setpoint s.rpmR)) = true
  · exact .inl ⟨h, by simp [State.startRpm, h]⟩
  · have h' := h
    simp only [Bool.or_eq_true, not_or, Bool.not_eq_true] at h'
    exact .inr ⟨h'.1, h'.2, by simp [State.startRpm, h'.1, h'.2]⟩

/-! ### The end of a buffer -/

theorem endParse_open (outcome : List Byte → Bool → Result) (h : s.phase = .rx) (hm : s.rxmode = .parse) :
    s.endParse outcome = s.finish 0x4 (outcome s.rxbuf s.vck) := by
  simp [State.endParse, h, hm]

theorem endParse_closed (outcome : List Byte → Bool → Result) (h : ¬(s.phase = .rx ∧ s.rxmode = .parse)) :
    s.endParse outcome = s := by
  simp [State.endParse, h]

/-- The layout selector gives an open PARSE buffer the outcome of the whole parse function. -/
theorem runSelector_open (h : s.phase = .rx) (hm : s.rxmode = .parse) :
    runSelector s = .next (s.finish 0x4 (parseResponse s.rxbuf s.vck)) := by
  unfold runSelector parseResponse
  cases hd : declaredLength? s.rxbuf with
  | none => simp [endParse_open _ h hm]
  | some n =>
    cases hs : selectLayout n <;>
      simp [hs, execRespL14, execRespL16, execRespUnknown, endParse_open _ h hm]

/-- The selector never stops the machine. -/
theorem runSelector_next (s : State) : ∃ t, runSelector s = .next t := by
  unfold runSelector
  split
  · exact ⟨_, rfl⟩
  · split <;> exact ⟨_, rfl⟩

/-- Neither does the end of a buffer. -/
theorem endBuffer_next (s : State) : ∃ t, s.endBuffer = .next t := by
  unfold State.endBuffer
  split
  · exact runSelector_next s
  · exact ⟨_, rfl⟩

theorem deliver_next (s : State) (act : State → Outcome) (h : ∃ t, act s = .next t) :
    ∃ t, s.deliver act = .next t := by
  unfold State.deliver
  split
  · exact h
  · exact ⟨_, rfl⟩

/-- No instruction stops the machine. -/
theorem exec_next (i : Instr) (s : State) : ∃ t, exec i s = .next t := by
  cases i with
  | rxdLast data => exact deliver_next s (fun r => (r.appendRx data).endBuffer) (endBuffer_next _)
  | rxdEnd data => exact deliver_next s _ (endBuffer_next _)
  | rxdByte data => exact deliver_next s (fun r => .next (r.appendRx data)) ⟨_, rfl⟩
  | rxdNop data => exact deliver_next s _ ⟨_, rfl⟩
  | _ => exact ⟨_, rfl⟩

/-! ### Retiring -/

/-- What a successful outcome writes: one of three, by the operation. -/
theorem publishOk_cases {op : Opcode} {x : OkValue} (h : s.publishOk op x = some t) :
    (op = 0x4 ∧ ∃ r, x = .telemetry r ∧ t = s.noError.setTel r) ∨
    (op = 0x5 ∧ ∃ ck, x = .checksum ck ∧ t = s.noError.setCkres ck) ∨
    (op ≠ 0x4 ∧ op ≠ 0x5 ∧ t = s.noError) := by
  unfold State.publishOk at h
  split at h
  · rename_i h4
    split at h
    · exact .inl ⟨h4, _, rfl, by simpa using h.symm⟩
    · cases h
  · rename_i h4
    split at h
    · rename_i h5
      split at h
      · exact .inr (.inl ⟨h5, _, rfl, by simpa using h.symm⟩)
      · cases h
    · rename_i h5
      exact .inr (.inr ⟨h4, h5, by simpa using h.symm⟩)

/-- What the retire step can do when it does not stop. -/
theorem retire_cases (h : s.retire = .next t) :
    (s.phase ≠ .fin ∧ t = s) ∨
    (s.phase = .fin ∧ ∃ p, s.pend = some p ∧
      ((∃ code arg, p.result = .err code arg ∧ t = (s.recordError code arg).settle) ∨
        ∃ x u, p.result = .ok x ∧ s.publishOk p.op x = some u ∧ t = u.settle)) := by
  unfold State.retire at h
  split at h
  · rename_i hf
    refine .inr ⟨hf, ?_⟩
    split at h
    · cases h
    · rename_i p hp
      refine ⟨p, hp, ?_⟩
      split at h
      · rename_i code arg hr
        exact .inl ⟨code, arg, hr, by cases h; rfl⟩
      · rename_i x hr
        split at h
        · rename_i u hu
          exact .inr ⟨x, u, hr, hu, by cases h; rfl⟩
        · cases h
  · rename_i hf
    exact .inl ⟨hf, by cases h; rfl⟩

/-! ### The TX port -/

@[simp] theorem txValid_eq_true : s.txValid = true ↔ s.phase = .tx := by
  simp [State.txValid]

/-- What a transfer can do when it does not stop. -/
theorem transfer_cases (h : s.transfer = .next t) :
    (s.phase ≠ .tx ∧ t = s) ∨
    (s.phase = .tx ∧ ∃ b, s.txbuf[s.txidx]? = some b ∧
      ((s.txidx + 1 = s.txbuf.length ∧ t = (s.emit b true).finish s.lastop (.ok .sent)) ∨
        (s.txidx + 1 ≠ s.txbuf.length ∧ t = s.emit b false))) := by
  unfold State.transfer at h
  split at h
  · rename_i hv
    have hp : s.phase = .tx := txValid_eq_true.mp hv
    refine .inr ⟨hp, ?_⟩
    split at h
    · cases h
    · rename_i b hb
      refine ⟨b, by simpa [State.txData?, hv] using hb, ?_⟩
      by_cases hl : s.txidx + 1 = s.txbuf.length
      · have hL : s.txLast = true := by simp [State.txLast, hv, hl]
        rw [hL] at h
        exact .inl ⟨hl, by cases h; rfl⟩
      · have hL : s.txLast = false := by simp [State.txLast, hl]
        rw [hL] at h
        exact .inr ⟨hl, by cases h; rfl⟩
  · rename_i hv
    refine .inl ⟨fun hp => hv (txValid_eq_true.mpr hp), by cases h; rfl⟩

/-! ### The agents' steps -/

theorem step_host (h : s.nextAgent = .host) : step s = s.takeTurn.hostMove := by
  simp [step, h, State.move]

theorem step_transport (h : s.nextAgent = .transport) : step s = s.takeTurn.transfer := by
  simp [step, h, State.move]

theorem step_framer (h : s.nextAgent = .framer) : step s = s.takeTurn.retire := by
  simp [step, h, State.move]

theorem step_environment (h : s.nextAgent = .environment) : step s = .next s.takeTurn.doReset := by
  simp [step, h, State.move]

/-- What a register write is: nothing at a reserved offset, an instruction, or a plain write. -/
theorem regWrite_cases (s : State) (off : Offset) (v : Word) :
    (regAt off = none ∧ s.regWrite off v = .next s) ∨
    ∃ r, regAt off = some r ∧
      ((∃ i, decodeWrite r v = some i ∧ s.regWrite off v = exec i s) ∨
        (decodeWrite r v = none ∧ s.regWrite off v = .next (s.writePlain r v))) := by
  unfold State.regWrite
  cases hr : regAt off with
  | none => exact .inl ⟨rfl, rfl⟩
  | some r =>
    refine .inr ⟨r, rfl, ?_⟩
    cases hd : decodeWrite r v with
    | none => exact .inr ⟨rfl, by simp [hd]⟩
    | some i => exact .inl ⟨i, rfl, by simp [hd]⟩

/-- A register write never stops the machine. -/
theorem regWrite_next (s : State) (off : Offset) (v : Word) : ∃ t, s.regWrite off v = .next t := by
  rcases regWrite_cases s off v with ⟨_, h⟩ | ⟨_, _, ⟨i, _, h⟩ | ⟨_, h⟩⟩
  · exact ⟨_, h⟩
  · rw [h]; exact exec_next i s
  · exact ⟨_, h⟩

/-- What the host's turn can do: no access, a read, or a write. -/
theorem hostMove_cases (s : State) :
    (s.env.prog[s.env.hpc]? = none ∧ s.hostMove = .next s) ∨
    (∃ off n, s.hostMove = .next (s.hostRead off (s.regRead off) n)) ∨
    ∃ off v, s.env.prog[s.env.hpc]? = some (.wr off v) ∧ s.hostMove = s.hostNext.regWrite off v := by
  unfold State.hostMove
  cases hp : s.env.prog[s.env.hpc]? with
  | none => exact .inl ⟨rfl, rfl⟩
  | some op =>
    cases op with
    | rd off => exact .inr (.inl ⟨_, _, rfl⟩)
    | wr off v => exact .inr (.inr ⟨off, v, rfl, rfl⟩)
    | poll => exact .inr (.inl ⟨_, _, rfl⟩)
    | ifBit off k b target => exact .inr (.inl ⟨_, _, rfl⟩)

/-- The host never stops the machine. -/
theorem hostMove_next (s : State) : ∃ t, s.hostMove = .next t := by
  rcases hostMove_cases s with ⟨_, h⟩ | ⟨_, _, h⟩ | ⟨_, _, _, h⟩
  · exact ⟨_, h⟩
  · exact ⟨_, h⟩
  · rw [h]; exact regWrite_next _ _ _

end Sys2Proof.Machine
end

