-- ==== Sys2Proof/Laws/PerInstr.lean ====
section
/-!
SUPPORT. The opcode table's mask and match of every row, and that every well-formed instruction's own word meets
those of its row.
-/

namespace Sys2Proof.Laws

/-- The "mask" of the instruction's row of spec/opcode_table.json. -/
def rowMask : Instr → Word
  | .encInit => 0x0000000F
  | .statusPoll => 0x0000000F
  | .rpmSet => 0x0000000F
  | .parse => 0x0000000F
  | .cksum => 0x0000000F
  | .reserved0 => 0x0000000F
  | .reserved6 => 0x0000000F
  | .reserved7 => 0x0000000F
  | .reserved8 => 0x0000000F
  | .reserved9 => 0x0000000F
  | .reservedA => 0x0000000F
  | .reservedB => 0x0000000F
  | .reservedC => 0x0000000F
  | .reservedD => 0x0000000F
  | .reservedE => 0x0000000F
  | .reservedF => 0x0000000F
  | .rxdByte _ | .rxdLast _ | .rxdEnd _ | .rxdNop _ => 0x00000300
  | .respL14 | .respL16 => 0xFF
  | .respUnknown _ => 0x00

/-- The "match" of the instruction's row of spec/opcode_table.json. -/
def rowMatch : Instr → Word
  | .encInit => 0x00000001
  | .statusPoll => 0x00000002
  | .rpmSet => 0x00000003
  | .parse => 0x00000004
  | .cksum => 0x00000005
  | .reserved0 => 0x00000000
  | .reserved6 => 0x00000006
  | .reserved7 => 0x00000007
  | .reserved8 => 0x00000008
  | .reserved9 => 0x00000009
  | .reservedA => 0x0000000A
  | .reservedB => 0x0000000B
  | .reservedC => 0x0000000C
  | .reservedD => 0x0000000D
  | .reservedE => 0x0000000E
  | .reservedF => 0x0000000F
  | .rxdByte _ => 0x00000000
  | .rxdLast _ => 0x00000100
  | .rxdEnd _ => 0x00000300
  | .rxdNop _ => 0x00000200
  | .respL14 => 0x0E
  | .respL16 => 0x10
  | .respUnknown _ => 0x00

/-- The masked RXD word shows LAST and NODATA and no bit of DATA. -/
theorem rxdWord_marks (nodata last : Bool) (data : Byte) :
    rxdWord nodata last data &&& 0x00000300#32 = rxdWord nodata last 0#8 := by
  revert data
  cases nodata <;> cases last <;> decide

/-- The instruction's word has its row's fixed bits. -/
def TableRow.Statement (i : Instr) : Prop := i.wf = true → encodeWord i &&& rowMask i = rowMatch i

theorem TableRow.encInit : TableRow.Statement .encInit := fun _ => rfl
theorem TableRow.statusPoll : TableRow.Statement .statusPoll := fun _ => rfl
theorem TableRow.rpmSet : TableRow.Statement .rpmSet := fun _ => rfl
theorem TableRow.parse : TableRow.Statement .parse := fun _ => rfl
theorem TableRow.cksum : TableRow.Statement .cksum := fun _ => rfl
theorem TableRow.reserved0 : TableRow.Statement .reserved0 := fun _ => rfl
theorem TableRow.reserved6 : TableRow.Statement .reserved6 := fun _ => rfl
theorem TableRow.reserved7 : TableRow.Statement .reserved7 := fun _ => rfl
theorem TableRow.reserved8 : TableRow.Statement .reserved8 := fun _ => rfl
theorem TableRow.reserved9 : TableRow.Statement .reserved9 := fun _ => rfl
theorem TableRow.reservedA : TableRow.Statement .reservedA := fun _ => rfl
theorem TableRow.reservedB : TableRow.Statement .reservedB := fun _ => rfl
theorem TableRow.reservedC : TableRow.Statement .reservedC := fun _ => rfl
theorem TableRow.reservedD : TableRow.Statement .reservedD := fun _ => rfl
theorem TableRow.reservedE : TableRow.Statement .reservedE := fun _ => rfl
theorem TableRow.reservedF : TableRow.Statement .reservedF := fun _ => rfl
theorem TableRow.respL14 : TableRow.Statement .respL14 := fun _ => rfl
theorem TableRow.respL16 : TableRow.Statement .respL16 := fun _ => rfl
theorem TableRow.rxdByte (data : Byte) : TableRow.Statement (.rxdByte data) := fun _ =>
  rxdWord_marks false false data
theorem TableRow.rxdLast (data : Byte) : TableRow.Statement (.rxdLast data) := fun _ =>
  rxdWord_marks false true data
theorem TableRow.rxdEnd (data : Byte) : TableRow.Statement (.rxdEnd data) := fun _ =>
  rxdWord_marks true true data
theorem TableRow.rxdNop (data : Byte) : TableRow.Statement (.rxdNop data) := fun _ =>
  rxdWord_marks true false data
theorem TableRow.respUnknown (n : Byte) : TableRow.Statement (.respUnknown n) := fun _ => by
  simp [rowMask, rowMatch]

end Sys2Proof.Laws
end

