-- ==== Sys2Proof/Laws/Run.lean ====
section
/-! SUPPORT. Runs of the machine, one step at a time. -/

namespace Sys2Proof.Machine

theorem run_zero (s : State) : Host.Core.run Sys2Proof.core 0 s = .next s := rfl

/-- A run goes on from the next state of its first step. -/
theorem run_succ {s t : State} (n : Nat) (h : step s = .next t) :
    Host.Core.run Sys2Proof.core (n + 1) s = Host.Core.run Sys2Proof.core n t := by
  have h' : Sys2Proof.core.step s = Host.Outcome.next t := h
  simp only [Host.Core.run]
  rw [h']

/-- With a schedule, its first agent moves. -/
theorem nextAgent_cons {s : State} {a : Agent} {rest : List Agent} (h : s.env.sched = a :: rest) :
    s.nextAgent = a := by
  simp [State.nextAgent, h]

end Sys2Proof.Machine
end

