-- ==== Sys2Proof/Machine/Bounded.lean ====
section
/-!
DEFINITION. The receiver with bounded storage of 42_demux.md R179: an implementation that keeps a saturating count,
buffer bytes 0 to 22, the most recent byte and a running sum, and the outcome it computes from them.
-/

namespace Sys2Proof.Machine

/-- What the bounded receiver keeps (42_demux.md R179). -/
structure BoundedRx where
  /-- c = min(n, RX_SAT). -/
  count : Nat
  /-- Buffer bytes 0 to 22, as they arrive. -/
  head : List Byte
  /-- The most recent byte. -/
  last : Byte
  /-- s = sum(d) mod 256. -/
  sum : Byte
  deriving DecidableEq, Repr

/-- Nothing received. -/
def BoundedRx.empty : BoundedRx where
  count := 0
  head := []
  last := 0
  sum := 0

/-- One byte arrives; `sat` is RX_SAT, the OPEN parameter of 00_scope.md R8. -/
def BoundedRx.push (sat : Nat) (rx : BoundedRx) (b : Byte) : BoundedRx where
  count := min (rx.count + 1) sat
  head := if rx.head.length < 23 then rx.head ++ [b] else rx.head
  last := b
  sum := rx.sum + b

/-- The storage after a whole buffer. -/
def BoundedRx.receive (sat : Nat) (d : List Byte) : BoundedRx := d.foldl (BoundedRx.push sat) BoundedRx.empty

/-- The outcome of a buffer whose layout has been selected (42_demux.md R179): every field lies at a buffer offset
from 5 to 22, and the checksum of the bytes before the last is the last byte less the sum. -/
def BoundedRx.parseLayout (rx : BoundedRx) (need : Nat) (decodeFields : List Byte → Telemetry) (vck : Bool) : Result :=
  if rx.count < 6 + need then truncated rx.count
  else if vck && rx.sum != 0 then .err .checksumMismatch (mismatchArg (rx.last - rx.sum) rx.last)
  else .ok (.telemetry (decodeFields (rx.head.drop 5)))

/-- The parse outcome the bounded receiver gives (42_demux.md R179). -/
def BoundedRx.parse (rx : BoundedRx) (vck : Bool) : Result :=
  if rx.count < 5 then truncated rx.count
  else
    match selectLayout (byteAt rx.head 4) with
    | .l14 => rx.parseLayout Config.l14Need telemetry14 vck
    | .l16 => rx.parseLayout Config.l16Need telemetry16 vck
    | .unknown m => parseUnknown m

/-- The checksum the bounded receiver gives: (256 - s) mod 256 (42_demux.md R179). -/
def BoundedRx.checksum (rx : BoundedRx) : Byte := BitVec.ofNat 8 ((256 - rx.sum.toNat) % 256)

end Sys2Proof.Machine
end

