-- ==== Sys2Proof/Safety.lean ====
section
/-!
DEFINITION. What a good state is: the relations between the pieces of state that 10_state.md states or that its
rules keep, as one invariant, and a run of the machine along which they are claimed.
-/

namespace Sys2Proof.Machine

/-- The frame of a build command in progress: the frame that its operation code names (41_framer.md R131 to R133). -/
def RequestFrame (op : Opcode) (frame : List Byte) : Prop :=
  (op = 0x1 ∧ frame = encInitFrame) ∨ (op = 0x2 ∧ frame = statusPollFrame) ∨
    (op = 0x3 ∧ ∃ l r : Int, rpmOutOfRange l = false ∧ rpmOutOfRange r = false ∧ frame = rpmFrame l r)

/-- A parse result's flags are those of its own first I/O word (42_demux.md R169). -/
def Telemetry.FlagsAgree (t : Telemetry) : Prop :=
  match t.layout with
  | .l14 => True
  | .l16 io1 _ flags1 => flags1 = decodeIoFlags io1

/-- A pending outcome is one that its operation produces (60_exceptions.md R204, 70_reset_and_hazards.md R243). -/
def Pending.Legal (p : Pending) : Prop :=
  match p.result with
  | .ok .sent => p.op = 0x1 ∨ p.op = 0x2 ∨ p.op = 0x3
  | .ok (.telemetry t) => p.op = 0x4 ∧ t.FlagsAgree
  | .ok (.checksum _) => p.op = 0x5
  | .err .invalidRpmRange _ => p.op = 0x3
  | .err .unknownLayout _ => p.op = 0x4
  | .err .truncatedFrame _ => p.op = 0x4
  | .err .checksumMismatch _ => p.op = 0x4
  | .err .illegalCommand arg => (p.op = 0x0 ∨ 0x6 ≤ p.op) ∧ arg = p.op.setWidth 32

/-- The invariant of FRAMER. Nothing is said of `env`. -/
structure State.Inv (s : State) : Prop where
  /-- CFG's reserved bits read 0 (10_state.md R28). -/
  cfg_reserved : s.cfg.extractLsb' 1 31 = 0
  /-- There is a pending outcome exactly in phase FIN (10_state.md R25). -/
  pend_iff_fin : s.pend.isSome = true ↔ s.phase = .fin
  /-- It is one of the operation in progress. -/
  pend_legal : ∀ p, s.pend = some p → p.op = s.lastop ∧ p.Legal
  /-- In phase TX a byte of the operation's frame is offered (10_state.md R23, 20_memory.md R58). -/
  tx_frame : s.phase = .tx → s.txidx < s.txbuf.length ∧ RequestFrame s.lastop s.txbuf
  /-- `txbuf` has 0 to 13 bytes and `txidx` is at most its length (10_state.md R23). -/
  tx_bounds : s.txbuf.length ≤ 13 ∧ s.txidx ≤ s.txbuf.length
  /-- Outside a build operation there is no frame (70_reset_and_hazards.md R242). -/
  tx_empty : s.phase = .idle ∨ s.phase = .rx → s.txbuf = [] ∧ s.txidx = 0
  /-- In phases IDLE and TX no buffer is open (70_reset_and_hazards.md R242). -/
  rx_closed : s.phase = .idle ∨ s.phase = .tx → s.rxmode = .none ∧ s.rxbuf = [] ∧ s.vck = false
  /-- In phase RX the buffer is a PARSE's or a CKSUM's (10_state.md R22, R24). -/
  rx_open : s.phase = .rx →
    (s.rxmode = .parse ∧ s.lastop = 0x4) ∨ (s.rxmode = .cksum ∧ s.lastop = 0x5 ∧ s.vck = false)
  /-- While BUSY, no outcome can be read (70_reset_and_hazards.md R238, 10_state.md R33). -/
  busy_blank : s.phase ≠ .idle →
    s.done = false ∧ s.err = false ∧ s.errcode = 0 ∧ s.errarg = 0 ∧ s.ckres = 0 ∧ s.tel = none
  /-- ERR = 1 exactly when ERRCODE is not 0 (10_state.md R34). -/
  err_iff : s.err = true ↔ s.errcode ≠ 0
  /-- The codes 6 to 15 are never produced (30_encoding.md R90). -/
  errcode_range : s.errcode ≤ 5
  /-- Without an error ERRARG is 0 (10_state.md R38). -/
  errarg_zero : s.err = false → s.errarg = 0
  /-- An error is that of an operation that has retired (10_state.md R34). -/
  err_done : s.err = true → s.done = true
  /-- Telemetry is that of a PARSE that retired without error (10_state.md R40). -/
  tel_parse : ∀ t, s.tel = some t → s.done = true ∧ s.err = false ∧ s.lastop = 0x4 ∧ t.FlagsAgree
  /-- CKRES is that of a CKSUM that retired (10_state.md R39). -/
  ckres_cksum : s.ckres ≠ 0 → s.done = true ∧ s.lastop = 0x5
  /-- Without telemetry and before any operation has retired nothing but 0 is read there (70_reset_and_hazards.md
  R231). -/
  done_clear : s.done = false → s.err = false ∧ s.ckres = 0 ∧ s.tel = none

/-- `x` is finite and the correctly rounded value of `q`: no finite binary64 value is nearer to `q`, and if another
value is as near, `x` is the even one (00_scope.md R13, roundTiesToEven). Which bits are the value and which one is the
last is the layout of notes/assumptions/8.md (PRESUMED). -/
def Binary64.NearestEven (x : Bits64) (q : ℚ) : Prop :=
  Binary64.isFinite x = true ∧
    ∀ y : Bits64, Binary64.isFinite y = true →
      |Binary64.value x - q| ≤ |Binary64.value y - q| ∧
      (|Binary64.value x - q| = |Binary64.value y - q| → Binary64.value y ≠ Binary64.value x → x.getLsbD 0 = false)

/-- `t` is reached from `s` by some number of steps. -/
inductive Reaches : State → State → Prop where
  | refl (s : State) : Reaches s s
  | tail {s t u : State} : Reaches s t → step t = .next u → Reaches s u

/-- Two states of FRAMER agree on the host's operands, which are all that an operation's acceptance reads
(10_state.md R49). -/
def State.SameOperands (s t : State) : Prop := s.cfg = t.cfg ∧ s.rpmL = t.rpmL ∧ s.rpmR = t.rpmR

end Sys2Proof.Machine
end

