-- ==== Sys2Proof/Certificates/Slice0/Obligations.lean ====
section
/-!
DEFINITION. The statements for the provers, in the order of OBLIGATIONS.json. Each docstring names the rule of spec/
it rests on. Where a statement gives the whole next state as `{ s with … }`, every field it does not name is unchanged:
that is its frame.
-/

open Sys2Proof Sys2Proof.Machine

/-! ## Reset, the invariant and whole runs -/

/-- 10_state.md R48: the table of reset values, with STATUS, the TX port and every register as read. -/
def Obligations.ResetLeavesTheListedValues : Prop :=
  State.reset.phase = .idle ∧ State.reset.txbuf = [] ∧ State.reset.txidx = 0 ∧ State.reset.rxmode = .none ∧
    State.reset.rxbuf = [] ∧ State.reset.vck = false ∧ State.reset.pend = none ∧ State.reset.cfg = 0 ∧
    State.reset.rpmL = 0 ∧ State.reset.rpmR = 0 ∧ State.reset.done = false ∧ State.reset.err = false ∧
    State.reset.errcode = 0 ∧ State.reset.ign = false ∧ State.reset.lastop = 0 ∧ State.reset.statusWord = 0 ∧
    State.reset.errarg = 0 ∧ State.reset.ckres = 0 ∧ State.reset.tel = none ∧ State.reset.txValid = false ∧
    ∀ off : Offset, State.reset.regRead off = 0

/-- 70_reset_and_hazards.md R230: the environment's step gives every piece of FRAMER's state its reset value in every
phase. That the agents outside FRAMER keep theirs, but for the turn taken, is the MODEL'S CHOICE (log entry 1). -/
def Obligations.ResetStepClearsEveryPhase : Prop :=
  ∀ s : State, s.nextAgent = .environment →
    step s = .next { State.reset with env := { s.env with sched := s.env.sched.tail } }

/-- The state after reset meets the invariant. -/
def Obligations.ResetStateMeetsTheInvariant : Prop := State.reset.Inv

/-- Every step of every agent keeps the invariant (10_state.md R22 to R25, R28, R33, R34, R36, R39, R40). -/
def Obligations.EveryStepKeepsTheInvariant : Prop :=
  ∀ s t : State, s.Inv → step s = .next t → t.Inv

/-- 60_exceptions.md R215: no run from a state that meets the invariant is ever stopped, whatever the host's program
and the order of the agents. -/
def Obligations.NoRunIsEverStopped : Prop :=
  ∀ (n : Nat) (s : State), s.Inv → ∃ t : State, Host.Core.run Sys2Proof.core n s = .next t ∧ t.Inv

/-! ## From the bits to the step -/

/-- 20_memory.md R52: when the host moves and its statement is a write to CMD or RXD whose four byte lanes decode to
an instruction, the step is that instruction's meaning, the turn being taken and the host's program counter moved on.
The schedule and the host's program are the model's own (log entry 1). -/
def Obligations.StepRunsTheInstructionTheHostWrites : Prop :=
  ∀ (s : State) (off : Offset) (v : Word) (i : Instr),
    s.nextAgent = .host → s.env.prog[s.env.hpc]? = some (.wr off v) →
    ((regAt off = some .cmd ∧ decode .cmd (lanes v) = .ok i) ∨
      (regAt off = some .rxd ∧ decode .rxd (lanes v) = .ok i)) →
    step s = exec i { s with env := { s.env with sched := s.env.sched.tail, hpc := s.env.hpc + 1 } }

/-- 42_demux.md R176, R177: the RXD write that ends a PARSE buffer does, in the same step, what the response row
does that the buffer's declared-length byte selects. That the response rows are instructions which run inside that
write is the MODEL'S CHOICE, DEDUCED from 20_memory.md R61 (log entry 4). -/
def Obligations.EndOfAParseBufferRunsTheSelectedRow : Prop :=
  ∀ (s : State) (data : Byte) (i : Instr), s.phase = .rx → s.rxmode = .parse →
    (decode .response (s.rxbuf ++ [data]) = .ok i →
      exec (.rxdLast data) s = exec i { s with rxbuf := s.rxbuf ++ [data] }) ∧
    (decode .response s.rxbuf = .ok i → exec (.rxdEnd data) s = exec i s)

/-- Decode and encode agree: the bytes of every well-formed instruction, with every operand, decode to it. -/
def Obligations.DecodingUndoesEncoding : Prop :=
  ∀ i : Instr, i.wf = true → decode i.format (encode i) = .ok i

/-- 30_encoding.md R81, R84, R94: no bit that is not ignored is dropped. The word of the instruction decoded from a
CMD word is its bits 3:0, from an RXD word its bits 9:0, from a declared-length byte that byte. -/
def Obligations.EncodingUndoesDecodingOfTheReadBits : Prop :=
  ∀ (v : Word) (n : Byte),
    encodeWord (decodeCmd v) = v &&& 0x0000000F#32 ∧ (decodeCmd v).format = .cmd ∧
    encodeWord (decodeRxd v) = v &&& 0x000003FF#32 ∧ (decodeRxd v).format = .rxd ∧
    encodeWord (selectLayout n).toInstr = n.setWidth 32 ∧ (selectLayout n).toInstr.format = .response

/-- Words written out from 30_encoding.md R81, R82, R85, R94 and R101, as bytes. -/
def Obligations.SampleWordsDecodeAsTheSpecSays : Prop :=
  decode .cmd [0x01, 0x00, 0x00, 0x00] = .ok .encInit ∧
  decode .cmd [0xF1, 0xFF, 0xFF, 0xFF] = .ok .encInit ∧
  decode .cmd [0x03, 0x00, 0x00, 0x00] = .ok .rpmSet ∧
  decode .cmd [0x09, 0x00, 0x00, 0x00] = .ok .reserved9 ∧
  decode .rxd [0xAA, 0x01, 0x00, 0x00] = .ok (.rxdLast 0xAA) ∧
  decode .rxd [0x00, 0x03, 0x00, 0x00] = .ok (.rxdEnd 0x00) ∧
  decode .rxd [0x12, 0xFC, 0xFF, 0xFF] = .ok (.rxdByte 0x12) ∧
  decode .response [0x11, 0x22, 0x33, 0x44, 0x0E, 0xDC] = .ok .respL14 ∧
  decode .response [0x00, 0x00, 0x00, 0x00, 0x0F] = .ok (.respUnknown 0x0F) ∧
  decode .response [0x00, 0x00, 0x00, 0x0E] = .error .noDeclaredLength

/-! ## The commands -/

/-- 41_framer.md R138: ENC_INIT in phase IDLE discards the previous outcome and offers B7 B8 01 0A 01 0A 7B. -/
def Obligations.EncInitOffersItsFrame : Prop :=
  ∀ s : State, s.phase = .idle →
    exec .encInit s = .next
      { s with done := false, err := false, errcode := 0, errarg := 0, ckres := 0, tel := none, lastop := 0x1,
               txbuf := [0xB7, 0xB8, 0x01, 0x0A, 0x01, 0x0A, 0x7B], txidx := 0, phase := .tx }

/-- 41_framer.md R139: STATUS_POLL in phase IDLE discards the previous outcome and offers B7 B8 01 04 01 D8 B3. -/
def Obligations.StatusPollOffersItsFrame : Prop :=
  ∀ s : State, s.phase = .idle →
    exec .statusPoll s = .next
      { s with done := false, err := false, errcode := 0, errarg := 0, ckres := 0, tel := none, lastop := 0x2,
               txbuf := [0xB7, 0xB8, 0x01, 0x04, 0x01, 0xD8, 0xB3], txidx := 0, phase := .tx }

/-- 41_framer.md R133, R140 and 30_encoding.md R89: with both setpoints in the signed 16-bit range RPM_SET offers the
13 bytes of R89: the low and the high byte of each register between the constants, then the byte that makes the sum
of the frame a multiple of 256. -/
def Obligations.RpmSetInRangeOffersItsFrame : Prop :=
  ∀ s : State, s.phase = .idle →
    -32768 ≤ s.rpmL.toInt → s.rpmL.toInt ≤ 32767 → -32768 ≤ s.rpmR.toInt → s.rpmR.toInt ≤ 32767 →
    let body : List Byte :=
      [0xB7, 0xB8, 0x01, 0xCF, 0x07, 0x01, s.rpmL.extractLsb' 0 8, s.rpmL.extractLsb' 8 8, 0x01,
        s.rpmR.extractLsb' 0 8, s.rpmR.extractLsb' 8 8, 0x00]
    exec .rpmSet s = .next
      { s with done := false, err := false, errcode := 0, errarg := 0, ckres := 0, tel := none, lastop := 0x3,
               txbuf := body ++ [BitVec.ofInt 8 (-(byteSum body : Int))], txidx := 0, phase := .tx }

/-- 41_framer.md R134: with a setpoint outside the range RPM_SET emits no byte and its outcome is INVALID_RPM_RANGE,
bit 0 of the argument for the left setpoint and bit 1 for the right one. -/
def Obligations.RpmSetOutOfRangeIsRejectedBeforeEncoding : Prop :=
  ∀ s : State, s.phase = .idle →
    ¬((-32768 ≤ s.rpmL.toInt ∧ s.rpmL.toInt ≤ 32767) ∧ (-32768 ≤ s.rpmR.toInt ∧ s.rpmR.toInt ≤ 32767)) →
    exec .rpmSet s = .next
      { s with done := false, err := false, errcode := 0, errarg := 0, ckres := 0, tel := none, lastop := 0x3,
               pend := some
                 { op := 0x3,
                   result := .err .invalidRpmRange
                     ((if -32768 ≤ s.rpmL.toInt ∧ s.rpmL.toInt ≤ 32767 then 0 else 1) |||
                       (if -32768 ≤ s.rpmR.toInt ∧ s.rpmR.toInt ≤ 32767 then 0 else 2)) },
               phase := .fin }

/-- 42_demux.md R176: PARSE in phase IDLE opens an empty buffer and latches CFG bit 0. -/
def Obligations.ParseOpensAnEmptyBuffer : Prop :=
  ∀ s : State, s.phase = .idle →
    exec .parse s = .next
      { s with done := false, err := false, errcode := 0, errarg := 0, ckres := 0, tel := none, lastop := 0x4,
               rxmode := .parse, rxbuf := [], vck := s.cfg.getLsbD 0, phase := .rx }

/-- 40_checksum.md R116: CKSUM in phase IDLE opens an empty buffer. -/
def Obligations.CksumOpensAnEmptyBuffer : Prop :=
  ∀ s : State, s.phase = .idle →
    exec .cksum s = .next
      { s with done := false, err := false, errcode := 0, errarg := 0, ckres := 0, tel := none, lastop := 0x5,
               rxmode := .cksum, rxbuf := [], phase := .rx }

/-- 60_exceptions.md R203: each of the eleven reserved operation codes is accepted in phase IDLE and its outcome is
ILLEGAL_COMMAND with the operation code. -/
def Obligations.ReservedCommandsAreIllegal : Prop :=
  ∀ p : Instr × Opcode,
    p ∈ [(.reserved0, 0x0), (.reserved6, 0x6), (.reserved7, 0x7), (.reserved8, 0x8), (.reserved9, 0x9),
      (.reservedA, 0xA), (.reservedB, 0xB), (.reservedC, 0xC), (.reservedD, 0xD), (.reservedE, 0xE),
      (.reservedF, 0xF)] →
    ∀ s : State, s.phase = .idle →
      exec p.1 s = .next
        { s with done := false, err := false, errcode := 0, errarg := 0, ckres := 0, tel := none, lastop := p.2,
                 pend := some { op := p.2, result := .err .illegalCommand (p.2.setWidth 32) }, phase := .fin }

/-- 60_exceptions.md R201: while BUSY every CMD write, whatever its operation code, sets IGN and does nothing else. -/
def Obligations.CommandsWhileBusyOnlySetIgn : Prop :=
  ∀ s : State, s.phase ≠ .idle →
    (∀ i : Instr, i.format = .cmd → exec i s = .next { s with ign := true }) ∧
    ∀ (off : Offset) (v : Word), regAt off = some .cmd → s.regWrite off v = .next { s with ign := true }

/-! ## The RXD writes and the response rows -/

/-- 60_exceptions.md R202: outside phase RX every RXD write sets IGN and does nothing else. -/
def Obligations.RxdWritesOutsideRxOnlySetIgn : Prop :=
  ∀ s : State, s.phase ≠ .rx →
    (∀ i : Instr, i.format = .rxd → exec i s = .next { s with ign := true }) ∧
    ∀ (off : Offset) (v : Word), regAt off = some .rxd → s.regWrite off v = .next { s with ign := true }

/-- 30_encoding.md R85: in phase RX the byte form appends DATA and the no-op form does nothing. -/
def Obligations.RxdByteAppendsAndNopDoesNothing : Prop :=
  ∀ (s : State) (data : Byte), s.phase = .rx →
    exec (.rxdByte data) s = .next { s with rxbuf := s.rxbuf ++ [data] } ∧ exec (.rxdNop data) s = .next s

/-- 42_demux.md R177 and 40_checksum.md R110: the end of a CKSUM buffer, with or without a last byte, computes the
negated sum of the buffer modulo 256. -/
def Obligations.EndOfACksumBufferComputesTheChecksum : Prop :=
  ∀ (s : State) (data : Byte), s.phase = .rx → s.rxmode = .cksum →
    exec (.rxdLast data) s = .next
      { s with rxbuf := s.rxbuf ++ [data],
               pend := some
                 { op := 0x5,
                   result := .ok (.checksum (BitVec.ofInt 8 (-(byteSum s.rxbuf + data.toNat : Int)))) },
               phase := .fin } ∧
    exec (.rxdEnd data) s = .next
      { s with pend := some { op := 0x5, result := .ok (.checksum (BitVec.ofInt 8 (-(byteSum s.rxbuf : Int)))) },
               phase := .fin }

/-- 42_demux.md R176, R177: the end of a PARSE buffer computes the outcome of the parse function on the whole buffer
with the latched switch. -/
def Obligations.EndOfAParseBufferComputesTheOutcome : Prop :=
  ∀ (s : State) (data : Byte), s.phase = .rx → s.rxmode = .parse →
    exec (.rxdLast data) s = .next
      { s with rxbuf := s.rxbuf ++ [data],
               pend := some { op := 0x4, result := parseResponse (s.rxbuf ++ [data]) s.vck }, phase := .fin } ∧
    exec (.rxdEnd data) s = .next
      { s with pend := some { op := 0x4, result := parseResponse s.rxbuf s.vck }, phase := .fin }

/-- 42_demux.md R177, its whole pseudocode, of a register write at RXD's offset with any data word. -/
def Obligations.RxdWriteFollowsItsPseudocode : Prop :=
  ∀ (s : State) (v : Word),
    s.regWrite 0x18 v =
      if s.phase ≠ .rx then .next { s with ign := true }
      else
        let a : State := if v.getLsbD 9 = false then { s with rxbuf := s.rxbuf ++ [v.extractLsb' 0 8] } else s
        if v.getLsbD 8 = true then
          .next
            { a with pend := some
                       (if s.rxmode = .parse then { op := 0x4, result := parseResponse a.rxbuf s.vck }
                        else { op := 0x5, result := .ok (.checksum (checksum a.rxbuf)) }),
                     phase := .fin }
        else .next a

/-- 42_demux.md R166, R167, R170 with 30_encoding.md R92: the 14-byte layout's fields at their frame offsets, of a
buffer of at least 20 bytes that is not to be verified or whose sum is a multiple of 256. The row as an instruction of
its own is DEDUCED (log entry 4); RotationsAreNormalNumbers says what `rotation14` is. -/
def Obligations.RespL14DecodesItsFields : Prop :=
  ∀ s : State, s.phase = .rx → s.rxmode = .parse → 20 ≤ s.rxbuf.length →
    (s.vck = false ∨ byteSum s.rxbuf % 256 = 0) →
    let d : Nat → Byte := fun i => s.rxbuf.getD i 0
    let pos1 : BitVec 32 := d 11 ++ d 10 ++ d 9 ++ d 8
    let pos2 : BitVec 32 := d 18 ++ d 17 ++ d 16 ++ d 15
    exec .respL14 s = .next
      { s with pend := some
                 { op := 0x4,
                   result := .ok (.telemetry
                     { layout := .l14,
                       m1 := { rpm := d 6 ++ d 5, status := d 7, position := pos1, rot := rotation14 pos1 },
                       m2 := { rpm := d 13 ++ d 12, status := d 14, position := pos2, rot := rotation14 pos2 } }) },
               phase := .fin }

/-- 42_demux.md R166, R168, R169, R171 with 30_encoding.md R93: the 16-byte layout's fields at their frame offsets,
of a buffer of at least 24 bytes that is not to be verified or whose sum is a multiple of 256. The row as an
instruction of its own is DEDUCED (log entry 4); RotationsAreNormalNumbers says what `rotation16` is. -/
def Obligations.RespL16DecodesItsFields : Prop :=
  ∀ s : State, s.phase = .rx → s.rxmode = .parse → 24 ≤ s.rxbuf.length →
    (s.vck = false ∨ byteSum s.rxbuf % 256 = 0) →
    let d : Nat → Byte := fun i => s.rxbuf.getD i 0
    let pos1 : BitVec 32 := d 11 ++ d 10 ++ d 9 ++ d 8
    let pos2 : BitVec 32 := d 18 ++ d 17 ++ d 16 ++ d 15
    exec .respL16 s = .next
      { s with pend := some
                 { op := 0x4,
                   result := .ok (.telemetry
                     { layout := .l16 (d 20 ++ d 19) (d 22 ++ d 21)
                         { intSpeed := (d 19).getLsbD 0, alarmReset := (d 19).getLsbD 1, dir := (d 19).getLsbD 2,
                           runBrake := (d 19).getLsbD 3, startStop := (d 19).getLsbD 4, encB := (d 19).getLsbD 5,
                           encA := (d 19).getLsbD 6 },
                       m1 := { rpm := d 6 ++ d 5, status := d 7, position := pos1, rot := rotation16 pos1 },
                       m2 := { rpm := d 13 ++ d 12, status := d 14, position := pos2, rot := rotation16 pos2 } }) },
               phase := .fin }

/-- 42_demux.md R164, R165: where the two layouts fail. A buffer too short for the layout is TRUNCATED_FRAME with its
length; one long enough whose sum is not a multiple of 256 is, if it is to be verified, CHECKSUM_MISMATCH with the
expected checksum in bits 15:8 and the received byte in bits 7:0. The rows as instructions of their own are DEDUCED
(log entry 4). -/
def Obligations.ResponseRowsFailOnShortOrCorruptFrames : Prop :=
  ∀ (p : Instr × Nat), p ∈ [(.respL14, 20), (.respL16, 24)] →
    ∀ s : State, s.phase = .rx → s.rxmode = .parse →
      (s.rxbuf.length < p.2 →
        exec p.1 s = .next
          { s with pend := some
                     { op := 0x4, result := .err .truncatedFrame (BitVec.ofNat 32 s.rxbuf.length) },
                   phase := .fin }) ∧
      (p.2 ≤ s.rxbuf.length → s.vck = true → byteSum s.rxbuf % 256 ≠ 0 →
        exec p.1 s = .next
          { s with pend := some
                     { op := 0x4,
                       result := .err .checksumMismatch
                         (0#16 ++ BitVec.ofInt 8 (-(byteSum s.rxbuf.dropLast : Int)) ++ s.rxbuf.getLastD 0) },
                   phase := .fin })

/-- 42_demux.md R162: a declared length that is no layout gives UNKNOWN_LAYOUT with that byte. The row as an
instruction of its own is DEDUCED (log entry 4). -/
def Obligations.RespUnknownCarriesTheDeclaredLength : Prop :=
  ∀ (s : State) (n : Byte), s.phase = .rx → s.rxmode = .parse →
    exec (.respUnknown n) s = .next
      { s with pend := some { op := 0x4, result := .err .unknownLayout (0#24 ++ n) }, phase := .fin }

/-- THE MODEL'S CHOICE (log entry 4): outside an open PARSE buffer there is no response frame, and a response row
changes nothing. -/
def Obligations.ResponseRowsOutsideAParseBufferChangeNothing : Prop :=
  ∀ (i : Instr) (s : State), i.format = .response → ¬(s.phase = .rx ∧ s.rxmode = .parse) → exec i s = .next s

/-- 60_exceptions.md R207: one PARSE reports exactly one error, the first that applies, and succeeds when none does.
-/
def Obligations.ParseReportsTheFirstErrorThatApplies : Prop :=
  ∀ (d : List Byte) (vck : Bool),
    (d.length < 5 → parseResponse d vck = .err .truncatedFrame (BitVec.ofNat 32 d.length)) ∧
    ∀ n : Byte, d[4]? = some n →
      (n ≠ 14#8 → n ≠ 16#8 → parseResponse d vck = .err .unknownLayout (n.setWidth 32)) ∧
      ∀ need : Nat, (n = 14#8 ∧ need = 14) ∨ (n = 16#8 ∧ need = 18) →
        (d.length < 6 + need → parseResponse d vck = .err .truncatedFrame (BitVec.ofNat 32 d.length)) ∧
        (6 + need ≤ d.length → vck = true → byteSum d % 256 ≠ 0 →
          parseResponse d vck = .err .checksumMismatch
            (BitVec.ofNat 32 ((checksum d.dropLast).toNat * 256 + (d.getLastD 0).toNat))) ∧
        (6 + need ≤ d.length → (vck = false ∨ byteSum d % 256 = 0) →
          ∃ t : Telemetry, parseResponse d vck = .ok (.telemetry t))

/-- 42_demux.md R173, R174: without verification the outcome does not depend on the header bytes 0 to 3, on payload
bytes past the layout's need, or on the last byte. -/
def Obligations.ParseReadsOnlyItsFields : Prop :=
  ∀ (need : Nat) (n : Byte) (h h' fields extra extra' : List Byte),
    (n = 14#8 ∧ need = 14) ∨ (n = 16#8 ∧ need = 18) →
    h.length = 4 → h'.length = 4 → fields.length = need → extra ≠ [] → extra' ≠ [] →
    parseResponse (h ++ [n] ++ fields ++ extra) false = parseResponse (h' ++ [n] ++ fields ++ extra') false

/-- 42_demux.md R179: the receiver with bounded storage gives the outcome of the parse function and the checksum on
every buffer, for every RX_SAT of at least 24. -/
def Obligations.BoundedReceiverGivesTheSameOutcomes : Prop :=
  ∀ (sat : Nat) (d : List Byte) (vck : Bool), 24 ≤ sat →
    (BoundedRx.receive sat d).parse vck = parseResponse d vck ∧ (BoundedRx.receive sat d).checksum = checksum d

/-! ## Retiring -/

/-- 70_reset_and_hazards.md R242: the retire step, enabled exactly in phase FIN, publishes each kind of outcome and
returns the sequencer to IDLE; LASTOP and IGN stay. That FRAMER's turn in another phase changes nothing is the MODEL'S
CHOICE (log entry 2). -/
def Obligations.RetirePublishesTheOutcome : Prop :=
  ∀ s : State,
    (s.phase ≠ .fin → s.move .framer = .next s) ∧
    ∀ (op : Opcode) (r : Result), s.phase = .fin → s.pend = some { op := op, result := r } →
      (∀ (code : ErrCode) (arg : Word), r = .err code arg →
        s.move .framer = .next
          { s with done := true, err := true, errcode := code.code, errarg := arg, pend := none, rxmode := .none,
                   rxbuf := [], vck := false, txbuf := [], txidx := 0, phase := .idle }) ∧
      (∀ x : OkValue, r = .ok x → op ≠ 0x4 → op ≠ 0x5 →
        s.move .framer = .next
          { s with done := true, err := false, errcode := 0, errarg := 0, pend := none, rxmode := .none,
                   rxbuf := [], vck := false, txbuf := [], txidx := 0, phase := .idle }) ∧
      (∀ t : Telemetry, r = .ok (.telemetry t) → op = 0x4 →
        s.move .framer = .next
          { s with done := true, err := false, errcode := 0, errarg := 0, tel := some t, pend := none,
                   rxmode := .none, rxbuf := [], vck := false, txbuf := [], txidx := 0, phase := .idle }) ∧
      (∀ ck : Byte, r = .ok (.checksum ck) → op = 0x5 →
        s.move .framer = .next
          { s with done := true, err := false, errcode := 0, errarg := 0, ckres := ck, pend := none,
                   rxmode := .none, rxbuf := [], vck := false, txbuf := [], txidx := 0, phase := .idle })

/-- 60_exceptions.md R205 with 30_encoding.md R90: what the host reads after an error has retired. STATUS shows DONE,
ERR, the code's number and the operation code written at acceptance; ERRARG the argument; CKRES and every telemetry
register 0. -/
def Obligations.ErrorsReadBackWithTheirNumbers : Prop :=
  ∀ (s t : State) (op : Opcode) (code : ErrCode) (arg : Word), s.Inv → s.phase = .fin →
    s.pend = some { op := op, result := .err code arg } → s.retire = .next t →
    t.statusWord.extractLsb' 0 3 = 0b110#3 ∧
    (t.statusWord.extractLsb' 4 4).toNat =
      (match code with
        | .invalidRpmRange => 1
        | .unknownLayout => 2
        | .truncatedFrame => 3
        | .checksumMismatch => 4
        | .illegalCommand => 5) ∧
    t.statusWord.extractLsb' 8 2 = 0#2 ∧ t.statusWord.extractLsb' 12 4 = op ∧ t.regRead 0x08 = arg ∧
    ∀ off : Offset, 0x1C ≤ off.toNat → t.regRead off = 0

/-! ## The TX port -/

/-- 20_memory.md R58: the port's signals, and one transfer. That the transport's turn with TX_VALID = 0 changes nothing
and that the byte taken is recorded are the MODEL'S CHOICE (log entries 2 and 1). -/
def Obligations.TransferTakesTheOfferedByte : Prop :=
  ∀ s : State,
    (s.txValid = true ↔ s.phase = .tx) ∧
    (s.phase ≠ .tx → s.move .transport = .next s) ∧
    ∀ b : Byte, s.phase = .tx → s.txbuf[s.txidx]? = some b →
      s.txData? = some b ∧ (s.txLast = true ↔ s.txidx = s.txbuf.length - 1) ∧
      s.move .transport = .next
        (if s.txidx + 1 = s.txbuf.length then
          { s with txidx := s.txidx + 1, env := { s.env with sent := s.env.sent ++ [(b, true)] },
                   pend := some { op := s.lastop, result := .ok .sent }, phase := .fin }
        else { s with txidx := s.txidx + 1, env := { s.env with sent := s.env.sent ++ [(b, false)] } })

/-- 20_memory.md R58, 41_framer.md R136, 70_reset_and_hazards.md R247 (b): no step of the host or of FRAMER withdraws
or changes the byte offered, and phase TX lasts. Whose turn it is is the model's own (log entries 1 and 2). -/
def Obligations.OfferedByteIsNeverWithdrawn : Prop :=
  ∀ s t : State, s.phase = .tx → s.nextAgent = .host ∨ s.nextAgent = .framer → step s = .next t →
    t.phase = .tx ∧ t.txbuf = s.txbuf ∧ t.txidx = s.txidx ∧ t.txData? = s.txData? ∧ t.txLast = s.txLast

/-- 41_framer.md R135, 20_memory.md R59: a frame being offered leaves whole, in order and with TX_LAST on its last
byte alone, when the transport makes one transfer a byte and FRAMER then retires; what is left is phase IDLE, DONE
and no error. The schedule `env.sched` and the record `env.sent` of the bytes taken are the MODEL'S CHOICE (log entries
2 and 1). -/
def Obligations.FrameLeavesWholeAndInOrder : Prop :=
  ∀ (s : State) (body : List Byte) (final : Byte) (rest : List Agent),
    s.phase = .tx → s.txbuf = body ++ [final] → s.txidx = 0 → s.lastop ≠ 0x4 → s.lastop ≠ 0x5 →
    s.env.sched = List.replicate (body.length + 1) .transport ++ .framer :: rest →
    Host.Core.run Sys2Proof.core (body.length + 2) s = .next
      { s with phase := .idle, txbuf := [], txidx := 0, pend := none, rxmode := .none, rxbuf := [], vck := false,
               done := true, err := false, errcode := 0, errarg := 0,
               env := { s.env with sched := rest,
                                   sent := s.env.sent ++ body.map (fun b => (b, false)) ++ [(final, true)] } }

/-! ## A whole buffer -/

/-- 42_demux.md R177, 70_reset_and_hazards.md R235: a host that feeds a buffer byte by byte, with LAST on the last
one, has handed over exactly that buffer. The schedule `env.sched` and the host's program and program counter
`env.hpc` are the MODEL'S CHOICE (log entries 2 and 1). -/
def Obligations.FeedHandsOverTheWholeBuffer : Prop :=
  ∀ (s : State) (d : List Byte) (rest : List Agent) (more : List HostOp),
    d ≠ [] → s.phase = .rx → s.rxbuf = [] →
    s.env.sched = List.replicate d.length .host ++ rest →
    s.env.prog.drop s.env.hpc = feedOps d ++ more →
    Host.Core.run Sys2Proof.core d.length s = .next
      { s with rxbuf := d, phase := .fin,
               pend := some
                 (if s.rxmode = .parse then { op := 0x4, result := parseResponse d s.vck }
                  else { op := 0x5, result := .ok (.checksum (checksum d)) }),
               env := { s.env with sched := rest, hpc := s.env.hpc + d.length } }

/-- 70_reset_and_hazards.md R247 (a), 42_demux.md R176: until an RXD write with LAST = 1 the buffer stays open, with
its mode and its latched switch, and only grows; that write alone ends it. Reset apart. Whose turn it is and the host's
program, from which `fetched` reads, are the model's own (log entries 1 and 2). -/
def Obligations.OpenBufferEndsOnlyByALastWrite : Prop :=
  ∀ s t : State, s.phase = .rx → s.nextAgent ≠ .environment → step s = .next t →
    (t.phase = .rx ∧ t.rxmode = s.rxmode ∧ t.vck = s.vck ∧
      (t.rxbuf = s.rxbuf ∨ ∃ b : Byte, s.fetched = some (.rxdByte b) ∧ t.rxbuf = s.rxbuf ++ [b])) ∨
    (t.phase = .fin ∧ ∃ b : Byte,
      (s.fetched = some (.rxdLast b) ∧ t.rxbuf = s.rxbuf ++ [b]) ∨
        (s.fetched = some (.rxdEnd b) ∧ t.rxbuf = s.rxbuf))

/-! ## The registers -/

/-- 10_state.md R31, R32, R36: each field of STATUS at its bits, the reserved bits 0, and a write of STATUS changing
IGN alone. -/
def Obligations.StatusFieldsStandAtTheirBits : Prop :=
  ∀ (s : State) (v : Word),
    s.statusWord.getLsbD 0 = decide (s.phase ≠ .idle) ∧ s.statusWord.getLsbD 1 = s.done ∧
    s.statusWord.getLsbD 2 = s.err ∧ s.statusWord.getLsbD 3 = s.ign ∧
    s.statusWord.extractLsb' 4 4 = s.errcode ∧
    s.statusWord.extractLsb' 8 2 =
      (match s.tel with
        | none => 0#2
        | some ⟨.l14, _, _⟩ => 1#2
        | some ⟨.l16 _ _ _, _, _⟩ => 2#2) ∧
    s.statusWord.extractLsb' 10 2 = 0 ∧ s.statusWord.extractLsb' 12 4 = s.lastop ∧
    s.statusWord.extractLsb' 16 16 = 0 ∧ s.regRead 0x04 = s.statusWord ∧
    s.regWrite 0x04 v = .next (if v.getLsbD 3 = true then { s with ign := false } else s)

/-- 42_demux.md R178 with 10_state.md R40 to R46: every telemetry register while a parse result is held, and 0 while
none is. -/
def Obligations.TelemetryRegistersShowTheParseResult : Prop :=
  ∀ s : State,
    (s.tel = none → ∀ off : Offset, 0x20 ≤ off.toNat → s.regRead off = 0) ∧
    ∀ t : Telemetry, s.tel = some t →
      s.regRead 0x20 = t.m1.rpm.signExtend 32 ∧ s.regRead 0x24 = t.m1.status.setWidth 32 ∧
      s.regRead 0x28 = t.m1.position ∧ s.regRead 0x2C = t.m2.rpm.signExtend 32 ∧
      s.regRead 0x30 = t.m2.status.setWidth 32 ∧ s.regRead 0x34 = t.m2.position ∧
      s.regRead 0x48 ++ s.regRead 0x44 = t.m1.rot ∧ s.regRead 0x50 ++ s.regRead 0x4C = t.m2.rot ∧
      match t.layout with
      | .l14 =>
        s.regRead 0x38 = 0 ∧ s.regRead 0x3C = 0 ∧ s.regRead 0x40 = 0 ∧ s.statusWord.extractLsb' 8 2 = 1#2
      | .l16 io1 io2 f =>
        s.regRead 0x38 = io1.signExtend 32 ∧ s.regRead 0x3C = io2.signExtend 32 ∧
        (s.regRead 0x40).getLsbD 0 = f.intSpeed ∧ (s.regRead 0x40).getLsbD 1 = f.alarmReset ∧
        (s.regRead 0x40).getLsbD 2 = f.dir ∧ (s.regRead 0x40).getLsbD 3 = f.runBrake ∧
        (s.regRead 0x40).getLsbD 4 = f.startStop ∧ (s.regRead 0x40).getLsbD 5 = f.encB ∧
        (s.regRead 0x40).getLsbD 6 = f.encA ∧ (s.regRead 0x40).extractLsb' 7 25 = 0 ∧
        s.statusWord.extractLsb' 8 2 = 2#2

/-- 42_demux.md R169, 10_state.md R45: the flags register of an I/O word is its low seven bits. -/
def Obligations.FlagsAreTheLowSevenBits : Prop :=
  ∀ w : BitVec 16, (decodeIoFlags w).word = (w &&& 0x007F#16).setWidth 32

/-- 20_memory.md R54, R55: offset bits 1:0 are ignored, the offsets from 0x54 on read 0 and ignore writes, and no
access stops the machine. -/
def Obligations.AccessesAreAlignedAndNeverFault : Prop :=
  ∀ (s : State) (off : Offset) (v : Word),
    s.regRead off = s.regRead (off &&& 0xFC#8) ∧ s.regWrite off v = s.regWrite (off &&& 0xFC#8) v ∧
    (0x54 ≤ off.toNat → s.regRead off = 0 ∧ s.regWrite off v = .next s) ∧
    ∃ t : State, s.regWrite off v = .next t

/-- 20_memory.md R52, its whole case table: CMD and RXD words are decoded and run, STATUS, CFG, RPM_L and RPM_R are
written as given, and every other offset ignores the write. -/
def Obligations.RegWriteFollowsItsCases : Prop :=
  ∀ (s : State) (off : Offset) (v : Word) (a : Nat), a = 4 * (off.toNat / 4) →
    (a = 0x00 → s.regWrite off v = exec (decodeCmd v) s) ∧
    (a = 0x04 → s.regWrite off v = .next (if v.getLsbD 3 = true then { s with ign := false } else s)) ∧
    (a = 0x0C → s.regWrite off v = .next { s with cfg := v &&& 0x00000001#32 }) ∧
    (a = 0x10 → s.regWrite off v = .next { s with rpmL := v }) ∧
    (a = 0x14 → s.regWrite off v = .next { s with rpmR := v }) ∧
    (a = 0x18 → s.regWrite off v = exec (decodeRxd v) s) ∧
    (a ≠ 0x00 → a ≠ 0x04 → a ≠ 0x0C → a ≠ 0x10 → a ≠ 0x14 → a ≠ 0x18 → s.regWrite off v = .next s)

/-- 20_memory.md R51, 30_encoding.md R100: the host's reads change nothing of FRAMER; the host records the value, and
goes on, stays (POLL while BUSY) or branches (IFBIT). The record of the reads is the MODEL'S CHOICE (log entry 1). -/
def Obligations.HostReadsLeaveFramerAlone : Prop :=
  ∀ s : State, s.nextAgent = .host →
    (∀ off : Offset, s.env.prog[s.env.hpc]? = some (.rd off) →
      step s = .next
        { s with env := { s.env with sched := s.env.sched.tail, reads := s.env.reads ++ [(off, s.regRead off)],
                                     hpc := s.env.hpc + 1 } }) ∧
    (s.env.prog[s.env.hpc]? = some .poll →
      step s = .next
        { s with env := { s.env with sched := s.env.sched.tail, reads := s.env.reads ++ [(0x04, s.statusWord)],
                                     hpc := if s.phase = .idle then s.env.hpc + 1 else s.env.hpc } }) ∧
    ∀ (off : Offset) (k : Fin 32) (b : Bool) (target : Nat),
      s.env.prog[s.env.hpc]? = some (.ifBit off k b target) →
      step s = .next
        { s with env := { s.env with sched := s.env.sched.tail, reads := s.env.reads ++ [(off, s.regRead off)],
                                     hpc := if (s.regRead off).getLsbD k = b then target else s.env.hpc + 1 } }

/-- 70_reset_and_hazards.md R238: while an operation is in progress ERRARG, CKRES and every telemetry register read
0, and STATUS shows BUSY without DONE, ERR, ERRCODE or LAYOUT. -/
def Obligations.ResultsReadZeroUntilRetire : Prop :=
  ∀ s : State, s.Inv → s.phase ≠ .idle →
    (∀ off : Offset, off.toNat / 4 = 2 ∨ 7 ≤ off.toNat / 4 → s.regRead off = 0) ∧
    s.statusWord.extractLsb' 0 3 = 0b001#3 ∧ s.statusWord.extractLsb' 4 6 = 0#6

/-! ## Whole-machine rules -/

/-- 10_state.md R37: LASTOP changes only when a CMD write is accepted, and then becomes its bits 3:0, or at reset.
Whose turn it is and the host's program are the model's own (log entries 1 and 2). -/
def Obligations.LastopChangesOnlyAtAcceptance : Prop :=
  ∀ s t : State, step s = .next t → t.lastop ≠ s.lastop →
    (s.nextAgent = .environment ∧ t.lastop = 0) ∨
    (s.nextAgent = .host ∧ s.phase = .idle ∧
      ∃ (off : Offset) (v : Word), s.env.prog[s.env.hpc]? = some (.wr off v) ∧ regAt off = some .cmd ∧
        t.lastop = v.extractLsb' 0 4)

/-- 10_state.md R40: telemetry is written only by the retire step of a successful PARSE, and emptied only by the
acceptance of a command or by reset. Whose turn it is and the host's program are the model's own (log entries 1 and
2). -/
def Obligations.TelemetryChangesOnlyAtParseRetireOrAcceptance : Prop :=
  ∀ s t : State, step s = .next t → t.tel ≠ s.tel →
    (s.nextAgent = .environment ∧ t.tel = none) ∨
    (s.nextAgent = .host ∧ s.phase = .idle ∧ t.tel = none ∧ ∃ i : Instr, s.fetched = some i ∧ i.format = .cmd) ∨
    (s.nextAgent = .framer ∧ s.phase = .fin ∧ t.phase = .idle ∧
      ∃ r : Telemetry, s.pend = some { op := 0x4, result := .ok (.telemetry r) } ∧ t.tel = some r)

/-- 10_state.md R35: IGN is cleared only by a STATUS write with bit 3 or by reset, and set only by a CMD write while
BUSY or an RXD write outside phase RX. Whose turn it is and the host's program are the model's own (log entries 1 and
2). -/
def Obligations.IgnIsStickyAndSetOnlyByLostWrites : Prop :=
  ∀ s t : State, step s = .next t →
    (s.ign = true → t.ign = false →
      s.nextAgent = .environment ∨
      (s.nextAgent = .host ∧ ∃ (off : Offset) (v : Word),
        s.env.prog[s.env.hpc]? = some (.wr off v) ∧ regAt off = some .status ∧ v.getLsbD 3 = true)) ∧
    (s.ign = false → t.ign = true →
      s.nextAgent = .host ∧ ∃ i : Instr, s.fetched = some i ∧
        ((i.format = .cmd ∧ s.phase ≠ .idle) ∨ (i.format = .rxd ∧ s.phase ≠ .rx)))

/-- 10_state.md R49: no result of one operation influences the next. Two idle states with the same operands accept
the same command into the same state of FRAMER, IGN apart, whatever outcome each of them held. -/
def Obligations.CommandsDependOnOperandsAlone : Prop :=
  ∀ (i : Instr) (s t s' t' : State), i.format = .cmd → s.Inv → t.Inv → s.phase = .idle → t.phase = .idle →
    s.SameOperands t → exec i s = .next s' → exec i t = .next t' →
    { s' with ign := t'.ign, env := t'.env } = t'

/-! ## The checksum and the request frames -/

/-- 40_checksum.md R112: the checksum property and its two consequences. -/
def Obligations.ChecksumMakesTheSumVanish : Prop :=
  ∀ d : List Byte,
    (byteSum d + (checksum d).toNat) % 256 = 0 ∧ checksum (d ++ [checksum d]) = 0 ∧
    (checksum d = 0 ↔ byteSum d % 256 = 0)

/-- 40_checksum.md R111: the checksum is (-sum(d)) mod 256, and 0 for the empty sequence. -/
def Obligations.ChecksumIsTheNegatedSum : Prop :=
  (∀ d : List Byte, ((checksum d).toNat : Int) = (-(byteSum d : Int)) % 256) ∧ checksum [] = 0

/-- 40_checksum.md R113: the incremental generator gives the same value; the grouping of the bytes and their order do
not matter. -/
def Obligations.IncrementalChecksumAgrees : Prop :=
  ∀ d e : List Byte,
    incrementalChecksum d = checksum d ∧ accumulate (accumulate 0 d) e = accumulate 0 (d ++ e) ∧
    (d.Perm e → checksum d = checksum e)

/-- 30_encoding.md R86, 41_framer.md R131, R132, R137: the three request frames have the lengths 7, 7 and 13, start
with 183, 184, 1 and their own byte 3, name in byte 4 how many bytes stand between offset 5 and the checksum, and sum
to a multiple of 256. -/
def Obligations.RequestFramesAreWellFormed : Prop :=
  encInitFrame = [183, 184, 1, 10, 1, 10, 123] ∧ statusPollFrame = [183, 184, 1, 4, 1, 216, 179] ∧
  ∀ (l r : Int) (f : List Byte) (b : Byte) (len : Nat),
    (f, b, len) ∈ [(encInitFrame, 10#8, 7), (statusPollFrame, 4#8, 7), (rpmFrame l r, 207#8, 13)] →
    f.length = len ∧ f.take 4 = [183, 184, 1, b] ∧ (f[4]?.map BitVec.toNat) = some (len - 6) ∧
    byteSum f % 256 = 0

/-- 30_encoding.md R89, R96: the setpoints an RPM frame carries are read back from its bytes as the signed numbers
they are. -/
def Obligations.SetpointsSurviveTheWire : Prop :=
  ∀ l r : Int, -32768 ≤ l → l ≤ 32767 → -32768 ≤ r → r ≤ 32767 →
    (le16 (rpmFrame l r) 6).toInt = l ∧ (le16 (rpmFrame l r) 9).toInt = r

/-! ## The wheel rotations -/

/-- 00_scope.md R13: division is rounded to nearest, ties to even. No finite binary64 value is nearer to the exact
quotient than the result, and one as near, if it is another value, leaves the result even. Which bits are a value, and
which is its last, is the binary64 layout of log entry 8 (PRESUMED, unsafe), which the spec names and does not give. -/
def Obligations.DivisionRoundsToNearestEven : Prop :=
  ∀ a b : Bits64, Binary64.isFinite a = true → Binary64.isFinite b = true → Binary64.mag b ≠ 0 →
    Binary64.isFinite (Binary64.div a b) = true →
    ∀ y : Bits64, Binary64.isFinite y = true →
      let q : ℚ := Binary64.value a / Binary64.value b
      let r : ℚ := Binary64.value (Binary64.div a b)
      |r - q| ≤ |Binary64.value y - q| ∧
      (|r - q| = |Binary64.value y - q| → Binary64.value y ≠ r → (Binary64.div a b).getLsbD 0 = false)

/-- 00_scope.md R13: the conversion of an integer of magnitude at most 2^53 is exact. The value of the bits is read by
the binary64 layout of log entry 8 (PRESUMED, unsafe), which R13 names and does not give. -/
def Obligations.IntegersConvertExactly : Prop :=
  ∀ n : Int, n.natAbs ≤ 2 ^ 53 →
    Binary64.isFinite (Binary64.ofInt n) = true ∧ Binary64.value (Binary64.ofInt n) = (n : ℚ)

/-- 42_demux.md R170, R171, R172: the two formulas, at every position. The rotation of the 16-byte layout is the
converted position divided by 6535.0, that of the 14-byte layout the same quotient divided by 100.0; so each is the
correctly rounded value of its own exact quotient. The rotation of position 0 is +0.0; of any other position it is, in
both layouts, a normal number with the sign of the position. Which bits are a value, its sign and its exponent is the
binary64 layout of log entry 8 (PRESUMED, unsafe), which the spec names and does not give. -/
def Obligations.RotationsAreNormalNumbers : Prop :=
  rotation14 0 = 0 ∧ rotation16 0 = 0 ∧
  (∀ pos : BitVec 32,
    rotation16 pos = Binary64.div (Binary64.ofInt pos.toInt) (Binary64.ofInt 6535) ∧
    rotation14 pos =
      Binary64.div (Binary64.div (Binary64.ofInt pos.toInt) (Binary64.ofInt 6535)) (Binary64.ofInt 100) ∧
    Binary64.NearestEven (rotation16 pos) ((pos.toInt : ℚ) / 6535) ∧
    Binary64.NearestEven (rotation14 pos) (Binary64.value (rotation16 pos) / 100)) ∧
  ∀ (pos : BitVec 32) (x : Bits64), pos ≠ 0 → x = rotation14 pos ∨ x = rotation16 pos →
    1 ≤ Binary64.expo x ∧ Binary64.expo x ≤ 2046 ∧ Binary64.sign x = decide (pos.toInt < 0)

/-- 42_demux.md R170: the two roundings of the 14-byte layout, at position 1, against one division by 653500. -/
def Obligations.TwoRoundingsAreNotOne : Prop :=
  rotation14 1 = 0x3EB9AC40C0A591E5 ∧
  Binary64.div (Binary64.ofInt 1) (Binary64.ofInt 653500) = 0x3EB9AC40C0A591E6

/-! ## The host's programs -/

/-- 30_encoding.md R99 to R101: the transactions of the command mnemonics and of the pseudo-instructions. -/
def Obligations.PseudoInstructionsExpandAsListed : Prop :=
  (∀ (bs : List Byte) (b : Byte),
    assemble [.feed (bs ++ [b])] =
      bs.map (fun c => HostOp.wr 0x18 (c.setWidth 32)) ++ [.wr 0x18 (0x100 ||| b.setWidth 32)]) ∧
  (∀ b : Byte, assemble [.rxb b] = [.wr 0x18 (b.setWidth 32)] ∧
    assemble [.rxl b] = [.wr 0x18 (0x100 ||| b.setWidth 32)]) ∧
  (∀ l r : Int, assemble [.setRpm l r] = [.wr 0x10 (BitVec.ofInt 32 l), .wr 0x14 (BitVec.ofInt 32 r)]) ∧
  assemble [.encInit, .statusPoll, .rpmSet, .parse, .cksum] =
    [.wr 0x00 0x1, .wr 0x00 0x2, .wr 0x00 0x3, .wr 0x00 0x4, .wr 0x00 0x5] ∧
  assemble [.strict true, .strict false, .rxEnd, .clrIgn, .poll, .rd .status] =
    [.wr 0x0C 0x1, .wr 0x0C 0x0, .wr 0x18 0x300, .wr 0x04 0x8, .poll, .rd 0x04] ∧
  ∀ (k : Fin 32) (v : Bool), assemble [.label 1, .poll, .ifBit .status k v 1, .cksum] =
    [.poll, .ifBit 0x04 k v 0, .wr 0x00 0x5]

/-! ## The read side of the register map -/

/-- 20_memory.md R51, R53, R54 with 10_state.md R26 to R31, R38, R39: what a read answers below the telemetry registers
and past them, in every state. The write-only CMD and RXD read 0, STATUS the word of its fields, ERRARG, CFG, RPM_L and
RPM_R the 32 bits they hold, CKRES its byte with 0 above, and a reserved offset 0. TelemetryRegistersShowTheParseResult
says the offsets 0x20 to 0x53, StatusFieldsStandAtTheirBits the fields of STATUS. -/
def Obligations.RegReadFollowsTheRegisterMap : Prop :=
  ∀ (s : State) (off : Offset) (a : Nat), a = 4 * (off.toNat / 4) →
    (a = 0x00 → s.regRead off = 0) ∧
    (a = 0x04 → s.regRead off = s.statusWord) ∧
    (a = 0x08 → s.regRead off = s.errarg) ∧
    (a = 0x0C → s.regRead off = s.cfg) ∧
    (a = 0x10 → s.regRead off = s.rpmL) ∧
    (a = 0x14 → s.regRead off = s.rpmR) ∧
    (a = 0x18 → s.regRead off = 0) ∧
    (a = 0x1C → s.regRead off = 0#24 ++ s.ckres) ∧
    (0x54 ≤ a → s.regRead off = 0)
end

