-- ==== Sys2Proof/Tests/Slice0.lean ====
section
/-!
SUPPORT. Small tests. The expected values are written out from the tables and the worked examples of spec/ (each
group names where), never from the model; each is about one operation or one step.
-/

namespace Sys2Proof.Tests

open Sys2Proof Sys2Proof.Machine

/-! ## Small states -/

/-- The state of a `next` outcome. -/
def nextOf (o : Outcome) : State :=
  match o with
  | .next s => s
  | _ => State.reset

/-- Phase IDLE with an old outcome: an error of a PARSE, and IGN set. -/
def afterError : State :=
  { State.reset with done := true, err := true, errcode := 2, errarg := 15, lastop := 4, ign := true }

/-- Phase RX with this buffer so far. -/
def collecting (mode : RxMode) (d : List Byte) (vck : Bool) : State :=
  { State.reset with phase := .rx, rxmode := mode, rxbuf := d, vck := vck,
                     lastop := if mode = .parse then 4 else 5 }

/-- Phase TX, the byte of index `i` of this frame being offered. -/
def offering (op : Opcode) (frame : List Byte) (i : Nat) : State :=
  { State.reset with phase := .tx, txbuf := frame, txidx := i, lastop := op }

/-- Phase FIN with this outcome. -/
def finished (op : Opcode) (r : Result) : State :=
  { State.reset with phase := .fin, lastop := op, pend := some { op := op, result := r } }

/-- RPM_L and RPM_R hold these numbers. -/
def setpoints (l r : Int) : State := { State.reset with rpmL := BitVec.ofInt 32 l, rpmR := BitVec.ofInt 32 r }

/-- The host moves next and makes this one transaction. -/
def State.hostNextDoes (s : State) (op : HostOp) : State :=
  { s with env := { s.env with sched := [.host], prog := [op] } }

/-- `a` moves next. -/
def State.movesNext (s : State) (a : Agent) : State := { s with env := { s.env with sched := [a] } }

/-- F14 of 95_test_vectors.md section 4. -/
def f14 : List Byte :=
  [0x11, 0x22, 0x33, 0x44, 0x0E, 0xDC, 0x05, 0x05, 0xBC, 0xF8, 0x09, 0x00, 0x24, 0xFA, 0x80, 0x79, 0xE6, 0xFF, 0xFF,
    0xAA]

/-- F16 of 95_test_vectors.md section 4. -/
def f16 : List Byte :=
  [0x11, 0x22, 0x33, 0x44, 0x10, 0xDC, 0x05, 0x05, 0xBC, 0xF8, 0x09, 0x00, 0x24, 0xFA, 0x80, 0x79, 0xE6, 0xFF, 0xFF,
    0x55, 0x00, 0xFF, 0xFF, 0x55]

/-- F14 with a last byte that is not its checksum (T4.15, T4.16). -/
def f14Corrupt : List Byte := f14.dropLast ++ [0xAB]

/-- F16 with a last byte that is not its checksum (T4.17). -/
def f16Corrupt : List Byte := f16.dropLast ++ [0x00]

/-- A parse result of the 16-byte layout. -/
def result16 : Telemetry where
  layout := .l16 0x0055 0xFFFF (decodeIoFlags 0x0055)
  m1 := { rpm := 0x05DC, status := 0x05, position := 0x0009F8BC, rot := 0x4059000000000000 }
  m2 := { rpm := 0xFA24, status := 0x80, position := 0xFFFFE679, rot := 0xBFF0000000000000 }

/-- Phase IDLE with a parse result held. -/
def holding (t : Telemetry) : State := { State.reset with done := true, lastop := 4, tel := some t }

/-! ## Ill-formed terms are refused -/

theorem test_wf_unknown_layout_is_not_14 : (Instr.respUnknown 14).wf = false := by decide
theorem test_wf_unknown_layout_is_not_16 : (Instr.respUnknown 16).wf = false := by decide
theorem test_wf_immediate_too_low : (HostStmt.wr .rpmL (-2147483649)).wf = false := by decide
theorem test_wf_immediate_too_high : (HostStmt.wr .cmd 4294967296).wf = false := by decide
theorem test_wf_immediate_bounds :
    (HostStmt.wr .rpmL (-2147483648)).wf = true ∧ (HostStmt.wr .rpmL 4294967295).wf = true := by decide
theorem test_wf_setpoint_too_high : (HostStmt.setRpm 0 4294967296).wf = false := by decide
theorem test_wf_empty_feed : (HostStmt.feed []).wf = false := by decide
theorem test_wf_label_not_set : programWf [.ifBit .status 2 true 7] = false := by decide
theorem test_wf_label_set_twice : programWf [.label 7, .label 7, .ifBit .status 2 true 7] = false := by decide
theorem test_wf_label_set_once : programWf [.label 7, .poll, .ifBit .status 2 true 7] = true := by decide

/-! ## Decoding, one word for each row (30_encoding.md R81, R82, R84, R85, R94; T5.4) -/

theorem test_decode_reserved_0x0 : decode .cmd [0x00, 0x00, 0x00, 0x00] = .ok .reserved0 := by decide
theorem test_decode_enc_init : decode .cmd [0x01, 0x00, 0x00, 0x00] = .ok .encInit := by decide
theorem test_decode_ignored_bits : decode .cmd [0xF1, 0xFF, 0xFF, 0xFF] = .ok .encInit := by decide
theorem test_decode_status_poll : decode .cmd [0x02, 0x00, 0x00, 0x00] = .ok .statusPoll := by decide
theorem test_decode_rpm_set : decode .cmd [0x03, 0x00, 0x00, 0x00] = .ok .rpmSet := by decide
theorem test_decode_parse : decode .cmd [0x04, 0x00, 0x00, 0x00] = .ok .parse := by decide
theorem test_decode_cksum : decode .cmd [0x05, 0x00, 0x00, 0x00] = .ok .cksum := by decide
theorem test_decode_reserved_0x6 : decode .cmd [0x06, 0x00, 0x00, 0x00] = .ok .reserved6 := by decide
theorem test_decode_reserved_0x7 : decode .cmd [0x07, 0x00, 0x00, 0x00] = .ok .reserved7 := by decide
theorem test_decode_reserved_0x8 : decode .cmd [0x08, 0x00, 0x00, 0x00] = .ok .reserved8 := by decide
theorem test_decode_reserved_0x9 : decode .cmd [0x09, 0x00, 0x00, 0x00] = .ok .reserved9 := by decide
theorem test_decode_reserved_0xA : decode .cmd [0x0A, 0x00, 0x00, 0x00] = .ok .reservedA := by decide
theorem test_decode_reserved_0xB : decode .cmd [0x0B, 0x00, 0x00, 0x00] = .ok .reservedB := by decide
theorem test_decode_reserved_0xC : decode .cmd [0x0C, 0x00, 0x00, 0x00] = .ok .reservedC := by decide
theorem test_decode_reserved_0xD : decode .cmd [0x0D, 0x00, 0x00, 0x00] = .ok .reservedD := by decide
theorem test_decode_reserved_0xE : decode .cmd [0x0E, 0x00, 0x00, 0x00] = .ok .reservedE := by decide
theorem test_decode_reserved_0xF : decode .cmd [0x0F, 0x00, 0x00, 0x00] = .ok .reservedF := by decide
theorem test_decode_rxd_byte : decode .rxd [0xB7, 0x00, 0x00, 0x00] = .ok (.rxdByte 0xB7) := by decide
theorem test_decode_rxd_last : decode .rxd [0xD8, 0x01, 0x00, 0x00] = .ok (.rxdLast 0xD8) := by decide
theorem test_decode_rxd_end : decode .rxd [0x00, 0x03, 0x00, 0x00] = .ok (.rxdEnd 0x00) := by decide
theorem test_decode_rxd_nop : decode .rxd [0x00, 0x02, 0x00, 0x00] = .ok (.rxdNop 0x00) := by decide
theorem test_decode_rxd_ignored_bits : decode .rxd [0x12, 0xFC, 0xFF, 0xFF] = .ok (.rxdByte 0x12) := by decide
theorem test_decode_resp_l14 : decode .response f14 = .ok .respL14 := by decide
theorem test_decode_resp_l16 : decode .response f16 = .ok .respL16 := by decide
theorem test_decode_resp_unknown : decode .response [0, 0, 0, 0, 0x0F, 0x01] = .ok (.respUnknown 0x0F) := by decide
theorem test_decode_rejects_a_short_word : decode .cmd [0x01] = .error .notAWord := by decide
theorem test_decode_rejects_a_short_response : decode .response [1, 2, 3, 14] = .error .noDeclaredLength := by decide

theorem test_encode_rxd_last : encode (.rxdLast 0xAA) = [0xAA, 0x01, 0x00, 0x00] := by decide
theorem test_table_word : decodeTableWord 32 0x00000003 = some .rpmSet ∧ decodeTableWord 16 0x0300 = some (.rxdEnd 0)
    ∧ decodeTableWord 8 0x10 = some .respL16 := by decide

/-! ## The checksum generator (95_test_vectors.md section 2) -/

theorem test_checksum_T2_1 : checksum [] = 0x00 := by decide
theorem test_checksum_T2_5 : checksum [0x80] = 0x80 := by decide
theorem test_checksum_T2_6 : checksum [0xFF, 0x01] = 0x00 := by decide
theorem test_checksum_T2_11 : checksum [1, 2, 3, 4, 5] = 0xF1 := by decide

/-! ## The commands (sections 3 and 5) -/

theorem test_enc_init_T3_12 :
    (nextOf (exec .encInit State.reset)).txbuf = [0xB7, 0xB8, 0x01, 0x0A, 0x01, 0x0A, 0x7B] ∧
    (nextOf (exec .encInit afterError)).statusWord = 0x00001009 := by decide

theorem test_status_poll_T3_13 :
    (nextOf (exec .statusPoll State.reset)).txbuf = [0xB7, 0xB8, 0x01, 0x04, 0x01, 0xD8, 0xB3] ∧
    (nextOf (exec .statusPoll (holding result16))).tel = none := by decide

theorem test_rpm_set_T3_1 :
    (nextOf (exec .rpmSet (setpoints 1500 (-1500)))).txbuf =
      [0xB7, 0xB8, 0x01, 0xCF, 0x07, 0x01, 0xDC, 0x05, 0x01, 0x24, 0xFA, 0x00, 0xB9] := by decide

theorem test_rpm_set_T3_9 :
    (nextOf (exec .rpmSet (setpoints 0 (-32769)))).pend = some { op := 3, result := .err .invalidRpmRange 2 } := by
  decide

theorem test_parse_latches_cfg :
    (nextOf (exec .parse { afterError with cfg := 1 })).vck = true ∧
    (nextOf (exec .parse afterError)).vck = false ∧ (nextOf (exec .parse afterError)).rxmode = .parse := by decide

theorem test_cksum_opens_a_buffer :
    (nextOf (exec .cksum afterError)).phase = .rx ∧ (nextOf (exec .cksum afterError)).rxmode = .cksum := by decide

theorem test_reserved_T5_2_and_T5_3 :
    (nextOf (exec .reserved0 State.reset)).pend = some { op := 0, result := .err .illegalCommand 0 } ∧
    (nextOf (exec .reservedF State.reset)).pend = some { op := 15, result := .err .illegalCommand 15 } := by decide

theorem test_command_while_busy_T5_5 :
    (nextOf (exec .encInit (collecting .cksum [] false))).ign = true ∧
    (nextOf (exec .encInit (collecting .cksum [] false))).phase = .rx ∧
    (nextOf (exec .encInit (collecting .cksum [] false))).lastop = 5 := by decide

/-! ## The RXD forms (30_encoding.md R85, sections 2, 4 and 5) -/

theorem test_rxd_byte_appends : (nextOf (exec (.rxdByte 0x12) (collecting .parse [0x11] false))).rxbuf = [0x11, 0x12] :=
  by decide

theorem test_rxd_byte_outside_rx_T5_6 :
    (nextOf (exec (.rxdByte 0x12) State.reset)).ign = true ∧ (nextOf (exec (.rxdByte 0x12) State.reset)).rxbuf = [] := by
  decide

theorem test_rxd_last_T2_9 :
    (nextOf (exec (.rxdLast 216) (collecting .cksum [183, 184, 1, 4, 1] false))).pend =
      some { op := 5, result := .ok (.checksum 0xB3) } := by decide

theorem test_rxd_last_T4_11 :
    (nextOf (exec (.rxdLast 0x01) (collecting .parse [0, 0, 0, 0, 0x0F] false))).pend =
      some { op := 4, result := .err .unknownLayout 0x0F } := by decide

theorem test_rxd_end_T4_5 :
    (nextOf (exec (.rxdEnd 0xFF) (collecting .parse [] false))).pend =
      some { op := 4, result := .err .truncatedFrame 0 } := by decide

theorem test_rxd_nop_T5_17 : exec (.rxdNop 0xFF) (collecting .parse [1] true) = .next (collecting .parse [1] true) := by
  rfl

/-! ## The response rows (section 4) -/

theorem test_resp_l14_T4_1 :
    (nextOf (exec .respL14 (collecting .parse f14 false))).pend =
      some
        { op := 4,
          result := .ok (.telemetry
            { layout := .l14,
              m1 := { rpm := 0x05DC, status := 0x05, position := 0x0009F8BC, rot := 0x3FF0000000000000 },
              m2 := { rpm := 0xFA24, status := 0x80, position := 0xFFFFE679, rot := 0xBF847AE147AE147B } }) } := by
  decide +kernel

theorem test_resp_l14_T4_16 :
    (nextOf (exec .respL14 (collecting .parse f14Corrupt true))).pend =
      some { op := 4, result := .err .checksumMismatch 0xAAAB } := by decide

theorem test_resp_l16_T4_2 :
    (nextOf (exec .respL16 (collecting .parse f16 true))).pend =
      some { op := 4, result := .ok (.telemetry result16) } := by decide +kernel

theorem test_resp_l16_T4_9 :
    (nextOf (exec .respL16 (collecting .parse (f16.take 22) false))).pend =
      some { op := 4, result := .err .truncatedFrame 22 } := by decide

theorem test_resp_unknown_T4_14 :
    (nextOf (exec (.respUnknown 0xFF) (collecting .parse [0, 0, 0, 0, 0xFF] true))).pend =
      some { op := 4, result := .err .unknownLayout 0xFF } := by decide

theorem test_rotations_T4_27 : rotation14 1 = 0x3EB9AC40C0A591E5 ∧ rotation16 1 = 0x3F240E92968159FB := by
  decide +kernel

theorem test_rotations_T4_32 :
    rotation14 0x80000000 = 0xC0A9AC40C0A591E5 ∧ rotation16 0x80000000 = 0xC1140E92968159FB := by decide +kernel

/-! ## Retiring, the TX port and the registers (sections 3 to 5) -/

theorem test_retire_error_T4_16 :
    (nextOf (finished 4 (.err .checksumMismatch 0xAAAB)).retire).statusWord = 0x00004046 ∧
    (nextOf (finished 4 (.err .checksumMismatch 0xAAAB)).retire).errarg = 0xAAAB := by decide

theorem test_retire_parse_T4_2 :
    (nextOf (finished 4 (.ok (.telemetry result16))).retire).statusWord = 0x00004202 := by decide

theorem test_retire_cksum_T2_9 :
    (nextOf (finished 5 (.ok (.checksum 0xB3))).retire).statusWord = 0x00005002 ∧
    (nextOf (finished 5 (.ok (.checksum 0xB3))).retire).regRead 0x1C = 0xB3 := by decide

theorem test_transfer_marks_the_last_byte :
    (nextOf (offering 1 encInitFrame 5).transfer).env.sent = [(0x0A, false)] ∧
    (nextOf (offering 1 encInitFrame 6).transfer).env.sent = [(0x7B, true)] ∧
    (nextOf (offering 1 encInitFrame 6).transfer).phase = .fin := by decide

theorem test_registers_T4_2 :
    (holding result16).regRead 0x20 = 0x000005DC ∧ (holding result16).regRead 0x2C = 0xFFFFFA24 ∧
    (holding result16).regRead 0x34 = 0xFFFFE679 ∧ (holding result16).regRead 0x38 = 0x00000055 ∧
    (holding result16).regRead 0x3C = 0xFFFFFFFF ∧ (holding result16).regRead 0x40 = 0x00000055 ∧
    (holding result16).regRead 0x48 = 0x40590000 ∧ (holding result16).regRead 0x50 = 0xBFF00000 := by decide

theorem test_status_write_T5_7_and_T5_8 :
    (nextOf (afterError.regWrite 0x04 0)).ign = true ∧ (nextOf (afterError.regWrite 0x07 0xFFFFFFFF)).ign = false ∧
    (nextOf (afterError.regWrite 0x04 0xFFFFFFFF)).err = true := by decide

theorem test_cfg_write_T5_10 : (nextOf (State.reset.regWrite 0x0C 0xFFFFFFFF)).regRead 0x0C = 1 := by decide

theorem test_setpoint_reads_T5_11 :
    (nextOf (State.reset.regWrite 0x10 0x12345678)).regRead 0x10 = 0x12345678 ∧
    (nextOf (State.reset.regWrite 0x10 0x12345678)).regRead 0x14 = 0 ∧
    (nextOf (State.reset.regWrite 0x17 0x9)).regRead 0x14 = 0x9 := by decide

theorem test_ignored_writes_T5_12 :
    (holding result16).regWrite 0x28 5 = .next (holding result16) ∧
    (holding result16).regWrite 0x80 5 = .next (holding result16) := ⟨by rfl, by rfl⟩

theorem test_offset_low_bits_T5_13 : afterError.regRead 0x06 = 0x0000402E := by decide

theorem test_reset_T5_15 :
    nextOf (step (State.movesNext (collecting .parse [1, 2, 3] true) .environment)) = State.reset := by decide

/-! ## The host's programs (30_encoding.md R100, P3) -/

theorem test_assemble_with_a_branch :
    assemble [.strict true, .label 1, .rxl 0xAB, .poll, .ifBit .status 2 true 1] =
      [.wr 0x0C 1, .wr 0x18 0x1AB, .poll, .ifBit 0x04 2 true 1] := by decide

theorem test_withFetchWord_runs_the_word :
    nextOf (step (State.reset.withFetchWord 32 2)) =
      nextOf (exec .statusPoll { (State.reset.withFetchWord 32 2) with
        env := { (State.reset.withFetchWord 32 2).env with sched := [], hpc := 1 } }) := by decide


/-! ## Witnesses: states and operands that meet the hypotheses of the statements

One for each statement of Certificates/Slice0/Obligations.lean that has hypotheses, at the bounds of its clauses. -/

theorem inv_afterError : afterError.Inv := by
  constructor <;> simp [afterError, State.reset]

theorem inv_holding : (holding result16).Inv := by
  constructor <;> simp [holding, result16, State.reset, Telemetry.FlagsAgree]

theorem inv_offering : (offering 1 encInitFrame 6).Inv := by
  constructor <;> simp [offering, State.reset, RequestFrame, encInitFrame, closeFrame, encInitTemplate]

theorem inv_collecting : (collecting .parse [1, 2, 3] true).Inv := by
  constructor <;> simp [collecting, State.reset]

theorem inv_collecting_cksum : (collecting .cksum [1, 2, 3] false).Inv := by
  constructor <;> simp [collecting, State.reset]

theorem inv_finished_parse : (finished 4 (.err .unknownLayout 15)).Inv := by
  constructor <;> simp [finished, State.reset, Pending.Legal]

theorem inv_finished_rpm : (finished 3 (.err .invalidRpmRange 3)).Inv := by
  constructor <;> simp [finished, State.reset, Pending.Legal]

theorem inv_finished_reserved : (finished 15 (.err .illegalCommand 15)).Inv := by
  constructor <;> simp [finished, State.reset, Pending.Legal]

theorem inv_movesNext {s : State} (h : s.Inv) (a : Agent) : (State.movesNext s a).Inv :=
  ⟨h.1, h.2, h.3, h.4, h.5, h.6, h.7, h.8, h.9, h.10, h.11, h.12, h.13, h.14, h.15, h.16⟩

theorem witness_ResetStepClearsEveryPhase :
    (State.movesNext (offering 1 encInitFrame 3) .environment).nextAgent = .environment := by rfl

theorem witness_EveryStepKeepsTheInvariant :
    (State.movesNext (offering 1 encInitFrame 6) .transport).Inv ∧
    (∃ t, step (State.movesNext (offering 1 encInitFrame 6) .transport) = .next t) ∧
    (State.movesNext (finished 4 (.err .unknownLayout 15)) .framer).Inv ∧
    (∃ t, step (State.movesNext (finished 4 (.err .unknownLayout 15)) .framer) = .next t) :=
  ⟨inv_movesNext inv_offering _, ⟨_, rfl⟩, inv_movesNext inv_finished_parse _, ⟨_, rfl⟩⟩

theorem witness_NoRunIsEverStopped : (collecting .parse [1, 2, 3] true).Inv := inv_collecting

theorem witness_StepRunsTheInstructionTheHostWrites :
    (State.hostNextDoes afterError (.wr 0x03 0xFFFFFFF1)).nextAgent = .host ∧
    (State.hostNextDoes afterError (.wr 0x03 0xFFFFFFF1)).env.prog[(0 : Nat)]? = some (.wr 0x03 0xFFFFFFF1) ∧
    regAt 0x03 = some .cmd ∧ decode .cmd (lanes 0xFFFFFFF1) = .ok .encInit ∧
    regAt 0x1B = some .rxd ∧ decode .rxd (lanes 0x000001AA) = .ok (.rxdLast 0xAA) := by decide

theorem witness_EndOfAParseBufferRunsTheSelectedRow :
    (collecting .parse [0, 0, 0, 0] false).phase = .rx ∧ (collecting .parse [0, 0, 0, 0] false).rxmode = .parse ∧
    decode .response ((collecting .parse [0, 0, 0, 0] false).rxbuf ++ [16]) = .ok .respL16 ∧
    decode .response (collecting .parse [0, 0, 0, 0, 14] false).rxbuf = .ok .respL14 := by decide

theorem witness_DecodingUndoesEncoding :
    (Instr.respUnknown 13).wf = true ∧ (Instr.respUnknown 15).wf = true ∧ (Instr.respUnknown 17).wf = true ∧
    (Instr.respUnknown 255).wf = true ∧ (Instr.rxdEnd 255).wf = true := by decide

/-- EncInitOffersItsFrame, StatusPollOffersItsFrame, ParseOpensAnEmptyBuffer, CksumOpensAnEmptyBuffer. -/
theorem witness_CommandsInPhaseIdle : afterError.phase = .idle ∧ (holding result16).phase = .idle := by decide

theorem witness_RpmSetInRangeOffersItsFrame :
    (setpoints 32767 (-32768)).phase = .idle ∧
    -32768 ≤ (setpoints 32767 (-32768)).rpmL.toInt ∧ (setpoints 32767 (-32768)).rpmL.toInt ≤ 32767 ∧
    -32768 ≤ (setpoints 32767 (-32768)).rpmR.toInt ∧ (setpoints 32767 (-32768)).rpmR.toInt ≤ 32767 := by decide

theorem witness_RpmSetOutOfRangeIsRejectedBeforeEncoding :
    (setpoints 32768 0).phase = .idle ∧ ¬((setpoints 32768 0).rpmL.toInt ≤ 32767) ∧
    ¬(-32768 ≤ (setpoints 0 (-32769)).rpmR.toInt) ∧ ¬(-32768 ≤ (setpoints (-32769) 0).rpmL.toInt) := by decide

theorem witness_ReservedCommandsAreIllegal :
    afterError.phase = .idle ∧
    ((.reservedA, 0xA) : Instr × Opcode) ∈
      [(.reserved0, 0x0), (.reserved6, 0x6), (.reserved7, 0x7), (.reserved8, 0x8), (.reserved9, 0x9),
        (.reservedA, 0xA), (.reservedB, 0xB), (.reservedC, 0xC), (.reservedD, 0xD), (.reservedE, 0xE),
        (.reservedF, 0xF)] := by decide

theorem witness_CommandsWhileBusyOnlySetIgn :
    (offering 1 encInitFrame 0).phase ≠ .idle ∧ (collecting .cksum [] false).phase ≠ .idle ∧
    (finished 15 (.err .illegalCommand 15)).phase ≠ .idle ∧ Instr.reserved0.format = .cmd ∧
    Instr.parse.format = .cmd ∧ regAt 0x00 = some .cmd ∧ regAt 0x03 = some .cmd := by decide

theorem witness_RxdWritesOutsideRxOnlySetIgn :
    State.reset.phase ≠ .rx ∧ (offering 1 encInitFrame 0).phase ≠ .rx ∧ (Instr.rxdNop 1).format = .rxd ∧
    (Instr.rxdByte 1).format = .rxd ∧ regAt 0x18 = some .rxd ∧ regAt 0x1B = some .rxd := by decide

/-- RxdByteAppendsAndNopDoesNothing, EndOfACksumBufferComputesTheChecksum, EndOfAParseBufferComputesTheOutcome,
RespUnknownCarriesTheDeclaredLength. -/
theorem witness_OpenBuffers :
    (collecting .cksum [] false).phase = .rx ∧ (collecting .cksum [] false).rxmode = .cksum ∧
    (collecting .parse [0, 0, 0, 0, 15] true).phase = .rx ∧ (collecting .parse [0, 0, 0, 0, 15] true).rxmode = .parse :=
  by decide

theorem witness_RespL14DecodesItsFields :
    (collecting .parse f14 true).phase = .rx ∧ (collecting .parse f14 true).rxmode = .parse ∧
    20 ≤ (collecting .parse f14 true).rxbuf.length ∧ byteSum (collecting .parse f14 true).rxbuf % 256 = 0 ∧
    (collecting .parse f14Corrupt false).vck = false ∧ 20 ≤ (collecting .parse f14Corrupt false).rxbuf.length := by
  decide

theorem witness_RespL16DecodesItsFields :
    (collecting .parse f16 true).phase = .rx ∧ (collecting .parse f16 true).rxmode = .parse ∧
    24 ≤ (collecting .parse f16 true).rxbuf.length ∧ byteSum (collecting .parse f16 true).rxbuf % 256 = 0 ∧
    (collecting .parse f16Corrupt false).vck = false ∧ 24 ≤ (collecting .parse f16Corrupt false).rxbuf.length := by
  decide

theorem witness_ResponseRowsFailOnShortOrCorruptFrames :
    (collecting .parse (f14.take 19) true).phase = .rx ∧ (collecting .parse (f14.take 19) true).rxmode = .parse ∧
    (f14.take 19).length < 20 ∧ (f16.take 23).length < 24 ∧ 20 ≤ f14Corrupt.length ∧ 24 ≤ f16Corrupt.length ∧
    (collecting .parse f14Corrupt true).vck = true ∧ byteSum f14Corrupt % 256 ≠ 0 ∧ byteSum f16Corrupt % 256 ≠ 0 := by
  decide

theorem witness_ResponseRowsOutsideAParseBufferChangeNothing :
    Instr.respL14.format = .response ∧ ¬(State.reset.phase = .rx ∧ State.reset.rxmode = .parse) ∧
    ¬((collecting .cksum f14 false).phase = .rx ∧ (collecting .cksum f14 false).rxmode = .parse) := by decide

theorem witness_ParseReportsTheFirstErrorThatApplies :
    ([0, 0, 0, 14] : List Byte).length < 5 ∧ ([0, 0, 0, 0, 15] : List Byte)[4]? = some 15 ∧
    (15#8 ≠ 14#8 ∧ 15#8 ≠ 16#8) ∧ (f14.take 19)[4]? = some 14 ∧ (f14.take 19).length < 6 + 14 ∧
    (f16.take 23)[4]? = some 16 ∧ (f16.take 23).length < 6 + 18 ∧
    f14Corrupt[4]? = some 14 ∧ 6 + 14 ≤ f14Corrupt.length ∧ byteSum f14Corrupt % 256 ≠ 0 ∧
    f16Corrupt[4]? = some 16 ∧ 6 + 18 ≤ f16Corrupt.length ∧ byteSum f16Corrupt % 256 ≠ 0 ∧
    6 + 14 ≤ f14.length ∧ byteSum f14 % 256 = 0 ∧ 6 + 18 ≤ f16.length ∧ byteSum f16 % 256 = 0 := by decide

theorem witness_ParseReadsOnlyItsFields :
    ([1, 2, 3, 4] : List Byte).length = 4 ∧ ([0, 0, 0, 0] : List Byte).length = 4 ∧
    (List.replicate 14 (7 : Byte)).length = 14 ∧ (List.replicate 18 (7 : Byte)).length = 18 ∧
    ([0xAA] : List Byte) ≠ [] ∧ ([1, 2, 3] : List Byte) ≠ [] := by decide

theorem witness_BoundedReceiverGivesTheSameOutcomes :
    24 ≤ 24 ∧ (BoundedRx.receive 24 [1, 2, 3]).count = 3 := by decide

theorem witness_RetirePublishesTheOutcome :
    State.reset.phase ≠ .fin ∧ (finished 4 (.err .unknownLayout 15)).phase = .fin ∧
    (finished 1 (.ok .sent)).pend = some { op := 1, result := .ok .sent } ∧ (1 : Opcode) ≠ 4 ∧ (1 : Opcode) ≠ 5 ∧
    (finished 4 (.ok (.telemetry result16))).pend = some { op := 4, result := .ok (.telemetry result16) } ∧
    (finished 5 (.ok (.checksum 0))).pend = some { op := 5, result := .ok (.checksum 0) } := by decide

theorem witness_ErrorsReadBackWithTheirNumbers :
    (finished 3 (.err .invalidRpmRange 3)).Inv ∧ (finished 15 (.err .illegalCommand 15)).Inv ∧
    (finished 15 (.err .illegalCommand 15)).phase = .fin ∧
    (∃ t, (finished 3 (.err .invalidRpmRange 3)).retire = .next t) ∧
    ∃ t, (finished 15 (.err .illegalCommand 15)).retire = .next t :=
  ⟨inv_finished_rpm, inv_finished_reserved, rfl, ⟨_, rfl⟩, ⟨_, rfl⟩⟩

theorem witness_TransferTakesTheOfferedByte :
    State.reset.phase ≠ .tx ∧ (offering 1 encInitFrame 0).phase = .tx ∧
    (offering 1 encInitFrame 0).txbuf[(0 : Nat)]? = some 0xB7 ∧
    (offering 1 encInitFrame 6).txbuf[(6 : Nat)]? = some 0x7B := by decide

theorem witness_OfferedByteIsNeverWithdrawn :
    (State.hostNextDoes (offering 3 (rpmFrame 1 0) 0) (.wr 0x10 2)).phase = .tx ∧
    (State.hostNextDoes (offering 3 (rpmFrame 1 0) 0) (.wr 0x10 2)).nextAgent = .host ∧
    (∃ t, step (State.hostNextDoes (offering 3 (rpmFrame 1 0) 0) (.wr 0x10 2)) = .next t) ∧
    (State.movesNext (offering 3 (rpmFrame 1 0) 0) .framer).nextAgent = .framer ∧
    ∃ t, step (State.movesNext (offering 3 (rpmFrame 1 0) 0) .framer) = .next t :=
  ⟨rfl, rfl, ⟨_, rfl⟩, rfl, ⟨_, rfl⟩⟩

/-- A state that meets FrameLeavesWholeAndInOrder's hypotheses with a frame of two bytes. -/
def twoByteFrame : State :=
  { offering 1 [0x01, 0x02] 0 with
    env := { State.reset.env with sched := [.transport, .transport, .framer, .host] } }

theorem witness_FrameLeavesWholeAndInOrder :
    twoByteFrame.phase = .tx ∧ twoByteFrame.txbuf = [0x01] ++ [0x02] ∧ twoByteFrame.txidx = 0 ∧
    twoByteFrame.lastop ≠ 4 ∧ twoByteFrame.lastop ≠ 5 ∧
    twoByteFrame.env.sched = List.replicate (([0x01] : List Byte).length + 1) .transport ++ .framer :: [.host] := by
  decide

/-- A state that meets FeedHandsOverTheWholeBuffer's hypotheses with a buffer of two bytes. -/
def feedingTwo : State :=
  { collecting .parse [] true with
    env := { State.reset.env with sched := [.host, .host], prog := [.wr 0x18 0x01, .wr 0x18 0x102, .poll] } }

theorem witness_FeedHandsOverTheWholeBuffer :
    ([1, 2] : List Byte) ≠ [] ∧ feedingTwo.phase = .rx ∧ feedingTwo.rxbuf = [] ∧
    feedingTwo.env.sched = List.replicate ([1, 2] : List Byte).length .host ++ [] ∧
    feedingTwo.env.prog.drop feedingTwo.env.hpc = feedOps [1, 2] ++ [.poll] := by decide

theorem witness_OpenBufferEndsOnlyByALastWrite :
    (State.hostNextDoes (collecting .parse [1] true) (.wr 0x18 0x01)).phase = .rx ∧
    (State.hostNextDoes (collecting .parse [1] true) (.wr 0x18 0x01)).nextAgent ≠ .environment ∧
    (∃ t, step (State.hostNextDoes (collecting .parse [1] true) (.wr 0x18 0x01)) = .next t) ∧
    (∃ t, step (State.hostNextDoes (collecting .parse [1] true) (.wr 0x18 0x101)) = .next t) ∧
    ∃ t, step (State.hostNextDoes (collecting .parse [1] true) (.wr 0x18 0x300)) = .next t :=
  ⟨rfl, by decide, ⟨_, rfl⟩, ⟨_, rfl⟩, ⟨_, rfl⟩⟩

theorem witness_TelemetryRegistersShowTheParseResult :
    State.reset.tel = none ∧ 0x20 ≤ (0x20 : Offset).toNat ∧ (holding result16).tel = some result16 ∧
    (holding { result16 with layout := .l14 }).tel = some { result16 with layout := .l14 } := by decide

theorem witness_AccessesAreAlignedAndNeverFault : 0x54 ≤ (0x54 : Offset).toNat ∧ 0x54 ≤ (0xFF : Offset).toNat := by
  decide

theorem witness_RegWriteFollowsItsCases :
    0x00 = 4 * ((0x03 : Offset).toNat / 4) ∧ 0x04 = 4 * ((0x04 : Offset).toNat / 4) ∧
    0x0C = 4 * ((0x0F : Offset).toNat / 4) ∧ 0x10 = 4 * ((0x10 : Offset).toNat / 4) ∧
    0x14 = 4 * ((0x17 : Offset).toNat / 4) ∧ 0x18 = 4 * ((0x1B : Offset).toNat / 4) ∧
    0x08 = 4 * ((0x08 : Offset).toNat / 4) ∧ 0x1C = 4 * ((0x1C : Offset).toNat / 4) := by decide

theorem witness_RegReadFollowsTheRegisterMap :
    0x00 = 4 * ((0x03 : Offset).toNat / 4) ∧ 0x04 = 4 * ((0x07 : Offset).toNat / 4) ∧
    0x08 = 4 * ((0x08 : Offset).toNat / 4) ∧ 0x0C = 4 * ((0x0F : Offset).toNat / 4) ∧
    0x10 = 4 * ((0x10 : Offset).toNat / 4) ∧ 0x14 = 4 * ((0x17 : Offset).toNat / 4) ∧
    0x18 = 4 * ((0x1B : Offset).toNat / 4) ∧ 0x1C = 4 * ((0x1F : Offset).toNat / 4) ∧
    0x54 = 4 * ((0x54 : Offset).toNat / 4) ∧ 0xFC = 4 * ((0xFF : Offset).toNat / 4) := by decide

theorem witness_HostReadsLeaveFramerAlone :
    (State.hostNextDoes (holding result16) (.rd 0x28)).nextAgent = .host ∧
    (State.hostNextDoes (holding result16) (.rd 0x28)).env.prog[(0 : Nat)]? = some (.rd 0x28) ∧
    (State.hostNextDoes (holding result16) .poll).env.prog[(0 : Nat)]? = some .poll ∧
    (State.hostNextDoes (holding result16) (.ifBit 0x04 2 true 5)).env.prog[(0 : Nat)]? = some (.ifBit 0x04 2 true 5) :=
  by decide

theorem witness_ResultsReadZeroUntilRetire :
    (offering 1 encInitFrame 6).Inv ∧ (offering 1 encInitFrame 6).phase ≠ .idle ∧
    (finished 4 (.err .unknownLayout 15)).Inv ∧ (0x08 : Offset).toNat / 4 = 2 ∧ (0x0B : Offset).toNat / 4 = 2 ∧
    7 ≤ (0x1C : Offset).toNat / 4 ∧ 7 ≤ (0xFF : Offset).toNat / 4 :=
  ⟨inv_offering, by decide, inv_finished_parse, by decide⟩

theorem witness_LastopChangesOnlyAtAcceptance :
    (∃ t, step (State.hostNextDoes afterError (.wr 0x00 0x9)) = .next t ∧ t.lastop ≠ afterError.lastop) ∧
    ∃ t, step (State.movesNext afterError .environment) = .next t ∧ t.lastop ≠ afterError.lastop :=
  ⟨⟨_, rfl, by decide⟩, ⟨_, rfl, by decide⟩⟩

theorem witness_TelemetryChangesOnlyAtParseRetireOrAcceptance :
    (∃ t, step (State.movesNext (finished 4 (.ok (.telemetry result16))) .framer) = .next t ∧ t.tel ≠ none) ∧
    (∃ t, step (State.hostNextDoes (holding result16) (.wr 0x00 0x2)) = .next t ∧ t.tel ≠ some result16) ∧
    ∃ t, step (State.movesNext (holding result16) .environment) = .next t ∧ t.tel ≠ some result16 :=
  ⟨⟨_, rfl, by decide⟩, ⟨_, rfl, by decide⟩, ⟨_, rfl, by decide⟩⟩

theorem witness_IgnIsStickyAndSetOnlyByLostWrites :
    (∃ t, step (State.hostNextDoes afterError (.wr 0x04 0x8)) = .next t ∧ afterError.ign = true ∧ t.ign = false) ∧
    (∃ t, step (State.hostNextDoes (offering 1 encInitFrame 0) (.wr 0x00 0x1)) = .next t ∧ t.ign = true) ∧
    ∃ t, step (State.hostNextDoes (holding result16) (.wr 0x18 0x12)) = .next t ∧ t.ign = true :=
  ⟨⟨_, rfl, by decide⟩, ⟨_, rfl, by decide⟩, ⟨_, rfl, by decide⟩⟩

theorem witness_CommandsDependOnOperandsAlone :
    Instr.parse.format = .cmd ∧ afterError.Inv ∧ (holding result16).Inv ∧ afterError.phase = .idle ∧
    (holding result16).phase = .idle ∧ afterError.SameOperands (holding result16) ∧
    (∃ t, exec .parse afterError = .next t) ∧ ∃ t, exec .parse (holding result16) = .next t :=
  ⟨rfl, inv_afterError, inv_holding, rfl, rfl, ⟨rfl, rfl, rfl⟩, ⟨_, rfl⟩, ⟨_, rfl⟩⟩

theorem witness_IncrementalChecksumAgrees : ([1, 2, 3, 4, 5] : List Byte).Perm [5, 4, 3, 2, 1] := by decide

theorem witness_RequestFramesAreWellFormed :
    (rpmFrame 1 2, 207#8, 13) ∈
      [(encInitFrame, 10#8, 7), (statusPollFrame, 4#8, 7), (rpmFrame 1 2, 207#8, 13)] := by decide

theorem witness_SetpointsSurviveTheWire :
    (-32768 : Int) ≤ -32768 ∧ (-32768 : Int) ≤ 32767 ∧ (-32768 : Int) ≤ 32767 ∧ (32767 : Int) ≤ 32767 := by decide

theorem witness_DivisionRoundsToNearestEven :
    Binary64.isFinite 0x3FF0000000000000 = true ∧ Binary64.isFinite 0x4008000000000000 = true ∧
    Binary64.mag 0x4008000000000000 ≠ 0 ∧
    Binary64.isFinite (Binary64.div 0x3FF0000000000000 0x4008000000000000) = true ∧
    Binary64.isFinite 0x3FD5555555555556 = true := by decide +kernel

theorem witness_IntegersConvertExactly : (2 ^ 53 : Int).natAbs ≤ 2 ^ 53 ∧ (-2 ^ 53 : Int).natAbs ≤ 2 ^ 53 := by decide

theorem witness_RotationsAreNormalNumbers :
    (1 : BitVec 32) ≠ 0 ∧ (0x80000000 : BitVec 32) ≠ 0 ∧ (0xFFFFFFFF : BitVec 32) ≠ 0 := by decide

end Sys2Proof.Tests
end

section
/-!
The correct rounding of a quotient of magnitudes: the shift and the significand `roundMag` packs, the value its encoding
reads back, and its distance to the exact quotient against that of any other finite value. The rounding of integers and
of divisions are the two uses.
-/

namespace Sys2Proof.Machine.Binary64

/-! ### The two parts of a rounded magnitude -/

/-- The shift `s` of `roundMag num den`. -/
def quotientShift (num den : Nat) : Nat := shiftFor (num * scale / den)

/-- The rounded significand `m` of `roundMag num den`. -/
def quotientSignificand (num den : Nat) : Nat := roundDiv (num * scale) (den * 2 ^ quotientShift num den)

/-- The magnitude, in units of 1/scale, that the two parts stand for. -/
def roundedUnits (num den : Nat) : Nat := quotientSignificand num den * 2 ^ quotientShift num den

theorem roundMag_eq_min (num den : Nat) :
    roundMag num den = min (quotientShift num den * 2 ^ 52 + quotientSignificand num den) (2047 * 2 ^ 52) := rfl

theorem quotientSignificand_le (num den : Nat) (hden : 0 < den) : quotientSignificand num den ≤ 2 ^ 53 := by
  refine roundDiv_le _ _ _ (by positivity) ?_
  have hq : num * scale / den < 2 ^ 53 * 2 ^ quotientShift num den := by
    rcases shiftFor_spec (num * scale / den) with ⟨hs, hlt⟩ | ⟨-, hlt⟩
    · rw [quotientShift, hs, pow_zero, mul_one]
      exact hlt
    · exact hlt
  rw [Nat.div_lt_iff_lt_mul hden] at hq
  rwa [mul_left_comm, mul_comm den]

/-- A shifted significand has all its 53 bits. -/
theorem le_quotientSignificand (num den : Nat) (hden : 0 < den) :
    quotientShift num den = 0 ∨ 2 ^ 52 ≤ quotientSignificand num den := by
  rcases shiftFor_spec (num * scale / den) with ⟨hs, -⟩ | ⟨hle, -⟩
  · exact .inl hs
  · refine .inr (le_roundDiv _ _ _ (by positivity) ?_)
    rw [Nat.le_div_iff_mul_le hden] at hle
    rwa [mul_left_comm, mul_comm den]

/-! ### What a rounded magnitude's encoding reads back -/

/-- The encoding is finite exactly when the packed parts stay below the encoding of infinity. -/
theorem isFinite_withSign_roundMag (neg : Bool) (num den : Nat) :
    isFinite (withSign neg (roundMag num den)) = true ↔
      quotientShift num den * 2 ^ 52 + quotientSignificand num den < 2047 * 2 ^ 52 := by
  have hlt : roundMag num den < 2 ^ 63 := by rw [roundMag_eq_min]; omega
  rw [isFinite, expo_withSign _ _ hlt, roundMag_eq_min, bne_iff_ne]
  omega

theorem roundMag_of_isFinite {neg : Bool} {num den : Nat} (hfin : isFinite (withSign neg (roundMag num den)) = true) :
    roundMag num den = quotientShift num den * 2 ^ 52 + quotientSignificand num den :=
  min_eq_left ((isFinite_withSign_roundMag neg num den).mp hfin).le

theorem mag_withSign_roundMag {neg : Bool} {num den : Nat} (hden : 0 < den)
    (hfin : isFinite (withSign neg (roundMag num den)) = true) :
    mag (withSign neg (roundMag num den)) = roundedUnits num den := by
  rw [roundMag_of_isFinite hfin]
  exact mag_withSign _ _ _ (quotientSignificand_le num den hden) (le_quotientSignificand num den hden)
    ((isFinite_withSign_roundMag neg num den).mp hfin)

theorem getLsbD_zero_withSign (neg : Bool) (m : Nat) : (withSign neg m).getLsbD 0 = decide (m % 2 = 1) := by
  have hm := withSign_toNat_mod neg m
  rw [BitVec.getLsbD, Nat.testBit_zero]
  congr 2
  omega

/-- The last bit of a finite encoding is the significand's. -/
theorem getLsbD_zero_withSign_roundMag {neg : Bool} {num den : Nat}
    (hfin : isFinite (withSign neg (roundMag num den)) = true) (heven : quotientSignificand num den % 2 = 0) :
    (withSign neg (roundMag num den)).getLsbD 0 = false := by
  rw [getLsbD_zero_withSign, roundMag_of_isFinite hfin, decide_eq_false_iff_not]
  omega

/-- The rounded magnitude is nearer to the exact quotient than any magnitude of at most 53 bits; distances are in units
of 1/den of the least magnitude. -/
theorem roundedUnits_nearest (num den k e : Nat) (hden : 0 < den) (hk : k < 2 ^ 53) :
    |(roundedUnits num den : ℤ) * den - (num * scale : ℕ)| ≤ |((k * 2 ^ e : ℕ) : ℤ) * den - (num * scale : ℕ)| ∧
      (|(roundedUnits num den : ℤ) * den - (num * scale : ℕ)| = |((k * 2 ^ e : ℕ) : ℤ) * den - (num * scale : ℕ)| →
        roundedUnits num den ≠ k * 2 ^ e → quotientSignificand num den % 2 = 0) := by
  have h := roundDiv_shiftFor_nearest (num * scale) den hden _ _ rfl rfl k e hk
  rw [roundedUnits]
  push_cast at h ⊢
  exact h

/-- A magnitude of at most 53 bits is not changed by rounding. -/
theorem roundedUnits_exact (num k e : Nat) (hk : k < 2 ^ 53) (hrep : num * scale = k * 2 ^ e) :
    roundedUnits num 1 = num * scale := by
  obtain ⟨hnear, -⟩ := roundedUnits_nearest num 1 k e one_pos hk
  rw [← hrep, Nat.cast_one, mul_one, mul_one, sub_self, abs_zero, abs_nonpos_iff, sub_eq_zero] at hnear
  exact_mod_cast hnear

/-! ### Distances between values and quotients -/

/-- The factor 1 or -1 of `value` that a sign bit stands for. -/
def signFactor (neg : Bool) : ℚ := if neg then -1 else 1

@[simp] theorem abs_signFactor (neg : Bool) : |signFactor neg| = 1 := by cases neg <;> simp [signFactor]

theorem signFactor_xor (p q : Bool) : signFactor (p ^^ q) = signFactor p / signFactor q := by
  cases p <;> cases q <;> norm_num [signFactor]

theorem signFactor_of_ne {p q : Bool} (h : p ≠ q) : signFactor p = -signFactor q := by
  cases p <;> cases q <;> simp_all [signFactor]

theorem value_eq (x : Bits64) : value x = signFactor (sign x) * mag x / scale := rfl

/-- `scale` with an exponent that no tactic sees as a numeral. -/
theorem scale_eq_two_pow : ∃ p, p = 1074 ∧ scale = 2 ^ p := by
  unfold scale
  exact ⟨1074, rfl, rfl⟩

theorem scale_pos : (0 : ℚ) < scale := by
  obtain ⟨p, -, hscale⟩ := scale_eq_two_pow
  rw [hscale]
  positivity

/-- The distance of a value to a quotient of its own sign. -/
theorem abs_value_sub_of_sign_eq {x : Bits64} {neg : Bool} (hx : sign x = neg) (num den : Nat) (hden : 0 < den) :
    |value x - signFactor neg * num / den| = ((|(mag x : ℤ) * den - (num * scale : ℕ)| : ℤ) : ℚ) / (scale * den) := by
  have hs := scale_pos
  have hd : (0 : ℚ) < den := by exact_mod_cast hden
  have hdiff : value x - signFactor neg * num / den =
      signFactor neg * (((mag x : ℚ) * den - num * scale) / (scale * den)) := by
    rw [value_eq, hx]
    field_simp
  rw [hdiff, abs_mul, abs_signFactor, one_mul, abs_div, abs_of_pos (mul_pos hs hd)]
  push_cast
  rfl

/-- The distance of a value to a quotient of the other sign. -/
theorem abs_value_sub_of_sign_ne {x : Bits64} {neg : Bool} (hx : sign x ≠ neg) (num den : Nat) (hden : 0 < den) :
    |value x - signFactor neg * num / den| = (((mag x : ℤ) * den + (num * scale : ℕ) : ℤ) : ℚ) / (scale * den) := by
  have hs := scale_pos
  have hd : (0 : ℚ) < den := by exact_mod_cast hden
  have hdiff : value x - signFactor neg * num / den =
      -signFactor neg * (((mag x : ℚ) * den + num * scale) / (scale * den)) := by
    rw [value_eq, signFactor_of_ne hx]
    field_simp
    ring
  rw [hdiff, abs_mul, abs_neg, abs_signFactor, one_mul, abs_of_nonneg (by positivity)]
  push_cast
  rfl

/-! ### Correct rounding -/

/-- A finite rounded magnitude is, with its sign, the correctly rounded value of the exact quotient. A value of the
other sign is no nearer to the quotient than 0 is. -/
theorem nearestEven_withSign_roundMag {neg : Bool} {num den : Nat} (hden : 0 < den)
    (hfin : isFinite (withSign neg (roundMag num den)) = true) :
    NearestEven (withSign neg (roundMag num den)) (signFactor neg * num / den) := by
  have hunits : (0 : ℚ) < scale * den := mul_pos scale_pos (by exact_mod_cast hden)
  have hmag := mag_withSign_roundMag hden hfin
  refine ⟨hfin, fun y _ => ?_⟩
  rw [abs_value_sub_of_sign_eq (sign_withSign neg _) num den hden, hmag]
  by_cases hy : sign y = neg
  · obtain ⟨k, e, hk, hlt, -⟩ := mag_eq_significand y
    obtain ⟨hnear, htie⟩ := roundedUnits_nearest num den k e hden hlt
    rw [abs_value_sub_of_sign_eq hy num den hden, hk, div_le_div_iff_of_pos_right hunits, div_left_inj' hunits.ne',
      Int.cast_le, Int.cast_inj]
    refine ⟨hnear, fun heq hne => getLsbD_zero_withSign_roundMag hfin (htie heq fun hsame => hne ?_)⟩
    rw [value_eq, value_eq, sign_withSign, hy, hmag, hk, hsame]
  · obtain ⟨hnear, htie⟩ := roundedUnits_nearest num den 0 0 hden (by norm_num)
    rw [zero_mul, Nat.cast_zero, zero_mul, zero_sub, abs_neg, Nat.abs_cast] at hnear htie
    have hy0 : (0 : ℤ) ≤ (mag y : ℤ) * den := by positivity
    rw [abs_value_sub_of_sign_ne hy num den hden, div_le_div_iff_of_pos_right hunits, div_left_inj' hunits.ne',
      Int.cast_le, Int.cast_inj]
    refine ⟨by linarith, fun heq hne => getLsbD_zero_withSign_roundMag hfin (htie (by linarith) fun hzero => hne ?_)⟩
    have hmy : mag y = 0 := by
      have : (mag y : ℤ) * den = 0 := by linarith
      simpa [hden.ne'] using this
    rw [value_eq, value_eq, hmag, hzero, hmy, Nat.cast_zero, mul_zero, mul_zero]

/-! ### Division and the conversion of integers -/

theorem isNaN_of_isFinite {x : Bits64} (hx : isFinite x = true) : isNaN x = false := by
  rw [isFinite, bne_iff_ne] at hx
  simp [isNaN, hx]

theorem isInf_of_isFinite {x : Bits64} (hx : isFinite x = true) : isInf x = false := by
  rw [isFinite, bne_iff_ne] at hx
  simp [isInf, hx]

/-- Of finite operands with a divisor other than 0, a division is the rounding of the quotient of the magnitudes. -/
theorem div_of_isFinite {a b : Bits64} (ha : isFinite a = true) (hb : isFinite b = true) (hb0 : mag b ≠ 0) :
    div a b = withSign (sign a ^^ sign b) (roundMag (mag a) (mag b)) := by
  simp [div, isNaN_of_isFinite, isInf_of_isFinite, ha, hb, hb0]

theorem value_div_value (a b : Bits64) : value a / value b = signFactor (sign a ^^ sign b) * mag a / mag b := by
  have hs := scale_pos.ne'
  rw [value_eq, value_eq, signFactor_xor, div_div_div_cancel_right₀ hs, mul_div_mul_comm, mul_div_assoc]

/-- A finite quotient of finite values is the correctly rounded value of the exact quotient. -/
theorem nearestEven_div {a b : Bits64} (ha : isFinite a = true) (hb : isFinite b = true) (hb0 : mag b ≠ 0)
    (hfin : isFinite (div a b) = true) : NearestEven (div a b) (value a / value b) := by
  rw [div_of_isFinite ha hb hb0] at hfin ⊢
  rw [value_div_value]
  exact nearestEven_withSign_roundMag (Nat.pos_of_ne_zero hb0) hfin

/-- A natural number up to 2^53 has a magnitude of at most 53 bits: the greatest one as a power of two. -/
theorem mul_scale_eq_significand {n : Nat} (hn : n ≤ 2 ^ 53) : ∃ k e, k < 2 ^ 53 ∧ n * scale = k * 2 ^ e := by
  obtain ⟨p, -, hscale⟩ := scale_eq_two_pow
  rcases hn.lt_or_eq with hlt | rfl
  · exact ⟨n, p, hlt, by rw [hscale]⟩
  · exact ⟨1, 53 + p, by norm_num, by rw [hscale, one_mul, pow_add]⟩

/-- A shifted significand is at least 2^52 and the magnitude of an integer at most 2^1127, so that the encoding stays
far below infinity. -/
theorem quotientShift_le {n : Nat} (hn : n ≤ 2 ^ 53) (hexact : roundedUnits n 1 = n * scale) :
    quotientShift n 1 ≤ 1075 := by
  rcases le_quotientSignificand n 1 one_pos with hs | hm
  · omega
  · obtain ⟨p, hp, hscale⟩ := scale_eq_two_pow
    have hpow : 2 ^ (52 + quotientShift n 1) ≤ 2 ^ (53 + p) :=
      calc 2 ^ (52 + quotientShift n 1) = 2 ^ 52 * 2 ^ quotientShift n 1 := pow_add _ _ _
        _ ≤ roundedUnits n 1 := Nat.mul_le_mul_right _ hm
        _ = n * 2 ^ p := by rw [hexact, hscale]
        _ ≤ 2 ^ 53 * 2 ^ p := Nat.mul_le_mul_right _ hn
        _ = 2 ^ (53 + p) := (pow_add _ _ _).symm
    have := (Nat.pow_le_pow_iff_right (by norm_num)).mp hpow
    omega

/-- The conversion of an integer up to 2^53 is finite, and its magnitude is the integer's. -/
theorem isFinite_mag_ofInt {n : Int} (hn : n.natAbs ≤ 2 ^ 53) :
    isFinite (ofInt n) = true ∧ mag (ofInt n) = n.natAbs * scale := by
  obtain ⟨k, e, hk, hrep⟩ := mul_scale_eq_significand hn
  have hexact := roundedUnits_exact n.natAbs k e hk hrep
  have hfin : isFinite (ofInt n) = true := by
    have hs := quotientShift_le hn hexact
    have hm := quotientSignificand_le n.natAbs 1 one_pos
    rw [ofInt, isFinite_withSign_roundMag]
    omega
  exact ⟨hfin, (mag_withSign_roundMag one_pos hfin).trans hexact⟩

theorem signFactor_mul_natAbs (n : Int) : signFactor (decide (n < 0)) * n.natAbs = n := by
  rw [Nat.cast_natAbs]
  by_cases hn : n < 0
  · simp [signFactor, hn, abs_of_neg hn]
  · simp [signFactor, hn, abs_of_nonneg (not_lt.mp hn)]

theorem value_ofInt {n : Int} (hn : n.natAbs ≤ 2 ^ 53) : value (ofInt n) = n := by
  obtain ⟨-, hmag⟩ := isFinite_mag_ofInt hn
  rw [value_eq, hmag, Nat.cast_mul, ← mul_assoc, mul_div_cancel_right₀ _ scale_pos.ne', ofInt, sign_withSign,
    signFactor_mul_natAbs]

/-! ### The obligations -/

/-- Settles O55: the quotient of the magnitudes is rounded once. -/
theorem divisionRoundsToNearestEven : Obligations.DivisionRoundsToNearestEven := by
  intro a b ha hb hb0 hfin
  exact (nearestEven_div ha hb hb0 hfin).2

/-- Settles O56: an integer up to 2^53 is a magnitude of at most 53 bits, so rounding does not change it. -/
theorem integersConvertExactly : Obligations.IntegersConvertExactly :=
  fun _ hn => ⟨(isFinite_mag_ofInt hn).1, value_ofInt hn⟩

end Sys2Proof.Machine.Binary64
end

section
/-!
What a step can do to FRAMER, said once: the effect of a register write, then that of a turn, each as an inductive
predicate with one constructor per kind of effect. The invariant and the whole-machine rules are case analyses of them.
-/

namespace Sys2Proof.Machine

variable {s t u : State}

/-! ### Commands -/

/-- What the command of operation code `op` does after its acceptance, for every code of 30_encoding.md R82. -/
def startCommand (op : Opcode) (s : State) : State :=
  match op.toNat with
  | 1 => s.startTx encInitFrame
  | 2 => s.startTx statusPollFrame
  | 3 => s.startRpm
  | 4 => s.openParse
  | 5 => s.openCksum
  | _ => s.raiseError op .illegalCommand (op.setWidth 32)

/-- The sixteen operation codes: the five commands, and the reserved codes, 0 and those from 6 on. -/
theorem opcode_cases : ∀ op : Opcode,
    op = 0x1 ∨ op = 0x2 ∨ op = 0x3 ∨ op = 0x4 ∨ op = 0x5 ∨ op = 0x0 ∨ op = 0x6 ∨ op = 0x7 ∨ op = 0x8 ∨ op = 0x9 ∨
      op = 0xA ∨ op = 0xB ∨ op = 0xC ∨ op = 0xD ∨ op = 0xE ∨ op = 0xF := by
  decide

/-- A CMD write is a command of its operation code. -/
theorem exec_decodeOp (op : Opcode) (s : State) : exec (decodeOp op) s = .next (s.command op (startCommand op)) := by
  obtain rfl | rfl | rfl | rfl | rfl | rfl | rfl | rfl | rfl | rfl | rfl | rfl | rfl | rfl | rfl | rfl :=
    opcode_cases op <;> rfl

@[simp] theorem format_decodeOp (op : Opcode) : (decodeOp op).format = .cmd := by
  unfold decodeOp
  split <;> rfl

@[simp] theorem format_decodeCmd (v : Word) : (decodeCmd v).format = .cmd := format_decodeOp _

@[simp] theorem format_decodeRxd (v : Word) : (decodeRxd v).format = .rxd := by
  unfold decodeRxd
  split <;> rfl

/-- Every CMD instruction is the decoding of an operation code. -/
theorem exists_decodeOp_of_format_cmd {i : Instr} (h : i.format = .cmd) : ∃ op, i = decodeOp op := by
  cases i with
  | encInit => exact ⟨0x1, rfl⟩
  | statusPoll => exact ⟨0x2, rfl⟩
  | rpmSet => exact ⟨0x3, rfl⟩
  | parse => exact ⟨0x4, rfl⟩
  | cksum => exact ⟨0x5, rfl⟩
  | reserved0 => exact ⟨0x0, rfl⟩
  | reserved6 => exact ⟨0x6, rfl⟩
  | reserved7 => exact ⟨0x7, rfl⟩
  | reserved8 => exact ⟨0x8, rfl⟩
  | reserved9 => exact ⟨0x9, rfl⟩
  | reservedA => exact ⟨0xA, rfl⟩
  | reservedB => exact ⟨0xB, rfl⟩
  | reservedC => exact ⟨0xC, rfl⟩
  | reservedD => exact ⟨0xD, rfl⟩
  | reservedE => exact ⟨0xE, rfl⟩
  | reservedF => exact ⟨0xF, rfl⟩
  | rxdByte | rxdLast | rxdEnd | rxdNop | respL14 | respL16 | respUnknown => cases h

/-- A request frame has at most 13 bytes and at least one. -/
theorem RequestFrame.length_bounds {op : Opcode} {f : List Byte} (h : RequestFrame op f) :
    0 < f.length ∧ f.length ≤ 13 := by
  obtain ⟨-, rfl⟩ | ⟨-, rfl⟩ | ⟨-, l, r, -, -, rfl⟩ := h
  · decide
  · decide
  · simp [rpmFrame]

/-- What a command does after its acceptance: it offers its frame, opens a buffer, or ends with an error of its own. -/
theorem startCommand_cases (op : Opcode) (s : State) :
    (∃ f, RequestFrame op f ∧ startCommand op s = s.startTx f) ∨
    (op = 0x4 ∧ startCommand op s = s.openParse) ∨
    (op = 0x5 ∧ startCommand op s = s.openCksum) ∨
    ∃ code arg, Pending.Legal ⟨op, .err code arg⟩ ∧ startCommand op s = s.raiseError op code arg := by
  have reserved (h : op = 0x0 ∨ 0x6 ≤ op) (hs : startCommand op s = s.raiseError op .illegalCommand (op.setWidth 32)) :
      ∃ code arg, Pending.Legal ⟨op, .err code arg⟩ ∧ startCommand op s = s.raiseError op code arg :=
    ⟨.illegalCommand, _, ⟨h, rfl⟩, hs⟩
  obtain rfl | rfl | rfl | rfl | rfl | hop := opcode_cases op
  · exact .inl ⟨_, .inl ⟨rfl, rfl⟩, rfl⟩
  · exact .inl ⟨_, .inr (.inl ⟨rfl, rfl⟩), rfl⟩
  · obtain ⟨-, h⟩ | ⟨hl, hr, h⟩ := startRpm_cases s
    · exact .inr (.inr (.inr ⟨.invalidRpmRange, _, rfl, h⟩))
    · exact .inl ⟨_, .inr (.inr ⟨rfl, _, _, hl, hr, rfl⟩), h⟩
  · exact .inr (.inl ⟨rfl, rfl⟩)
  · exact .inr (.inr (.inl ⟨rfl, rfl⟩))
  · refine .inr (.inr (.inr ?_))
    obtain rfl | rfl | rfl | rfl | rfl | rfl | rfl | rfl | rfl | rfl | rfl := hop <;> exact reserved (by decide) rfl

@[simp] theorem startCommand_lastop (op : Opcode) (s : State) : (startCommand op s).lastop = s.lastop := by
  obtain ⟨_, -, h⟩ | ⟨-, h⟩ | ⟨-, h⟩ | ⟨_, _, -, h⟩ := startCommand_cases op s <;> simp [h]

@[simp] theorem startCommand_tel (op : Opcode) (s : State) : (startCommand op s).tel = s.tel := by
  obtain ⟨_, -, h⟩ | ⟨-, h⟩ | ⟨-, h⟩ | ⟨_, _, -, h⟩ := startCommand_cases op s <;> simp [h]

@[simp] theorem startCommand_ign (op : Opcode) (s : State) : (startCommand op s).ign = s.ign := by
  obtain ⟨_, -, h⟩ | ⟨-, h⟩ | ⟨-, h⟩ | ⟨_, _, -, h⟩ := startCommand_cases op s <;> simp [h]

/-! ### Register writes -/

/-- What `s` is after the byte that the RXD word `v` carries, if it carries one (30_encoding.md R84). -/
inductive Received (s : State) (v : Word) : State → Prop where
  | nothing (hd : rxdNodataField v = true) : Received s v s
  | byte (hd : rxdNodataField v = false) : Received s v (s.appendRx (rxdDataField v))

/-- What the write of `v` at `off` does to FRAMER. -/
inductive WriteEffect (s : State) (off : Offset) (v : Word) : State → Prop where
  | reserved (hr : regAt off = none) : WriteEffect s off v s
  | accepted (hr : regAt off = some .cmd) (hi : s.phase = .idle) :
      WriteEffect s off v (startCommand (cmdOp v) (s.accept (cmdOp v)))
  | lostCommand (hr : regAt off = some .cmd) (hi : s.phase ≠ .idle) : WriteEffect s off v s.setIgn
  | lostByte (hr : regAt off = some .rxd) (hx : s.phase ≠ .rx) : WriteEffect s off v s.setIgn
  | received {w : State} (hr : regAt off = some .rxd) (hx : s.phase = .rx) (hl : rxdLastField v = false)
      (hw : Received s v w) : WriteEffect s off v w
  | endedParse {w : State} (hr : regAt off = some .rxd) (hx : s.phase = .rx) (hl : rxdLastField v = true)
      (hw : Received s v w) (hm : w.rxmode = .parse) :
      WriteEffect s off v (w.finish 0x4 (parseResponse w.rxbuf w.vck))
  | endedCksum {w : State} (hr : regAt off = some .rxd) (hx : s.phase = .rx) (hl : rxdLastField v = true)
      (hw : Received s v w) (hm : w.rxmode ≠ .parse) :
      WriteEffect s off v (w.finish 0x5 (.ok (.checksum (checksum w.rxbuf))))
  | plain (r : Reg) (hr : regAt off = some r) (hd : decodeWrite r v = none) : WriteEffect s off v (s.writePlain r v)

theorem Received.phase_eq {v : Word} (h : Received s v u) : u.phase = s.phase := by
  cases h <;> rfl

/-- The end of a buffer computes the outcome of the operation that collected it. -/
theorem endBuffer_cases (hx : s.phase = .rx) (h : s.endBuffer = .next t) :
    (s.rxmode = .parse ∧ t = s.finish 0x4 (parseResponse s.rxbuf s.vck)) ∨
    (s.rxmode ≠ .parse ∧ t = s.finish 0x5 (.ok (.checksum (checksum s.rxbuf)))) := by
  unfold State.endBuffer at h
  split at h
  · rename_i hm
    rw [runSelector_open hx hm] at h
    exact .inl ⟨hm, by cases h; rfl⟩
  · rename_i hm
    exact .inr ⟨hm, by cases h; rfl⟩

/-- In phase RX an RXD word delivers its byte, if it carries one, and ends the buffer exactly if LAST is set
(30_encoding.md R85). -/
theorem exec_decodeRxd_cases {v : Word} (hx : s.phase = .rx) (h : exec (decodeRxd v) s = .next t) :
    ∃ w, Received s v w ∧
      ((rxdLastField v = false ∧ t = w) ∨ (rxdLastField v = true ∧ w.endBuffer = .next t)) := by
  unfold decodeRxd at h
  split at h
  case h_1 hd hl =>
    rw [exec, execRxdByte, deliver_rx _ hx] at h
    exact ⟨_, .byte hd, .inl ⟨hl, (Host.Outcome.next.inj h).symm⟩⟩
  case h_2 hd hl =>
    rw [exec, execRxdLast, deliver_rx _ hx] at h
    exact ⟨_, .byte hd, .inr ⟨hl, h⟩⟩
  case h_3 hd hl =>
    rw [exec, execRxdEnd, deliver_rx _ hx] at h
    exact ⟨_, .nothing hd, .inr ⟨hl, h⟩⟩
  case h_4 hd hl =>
    rw [exec, execRxdNop, deliver_rx _ hx] at h
    exact ⟨_, .nothing hd, .inl ⟨hl, (Host.Outcome.next.inj h).symm⟩⟩

/-- Outside phase RX every RXD word is ignored (60_exceptions.md R202). -/
theorem exec_decodeRxd_elsewhere (v : Word) (hx : s.phase ≠ .rx) : exec (decodeRxd v) s = .next s.setIgn := by
  unfold decodeRxd
  split <;> simp only [exec, execRxdByte, execRxdLast, execRxdEnd, execRxdNop, deliver_elsewhere _ hx]

/-- The two registers whose words are instructions (20_memory.md R52). -/
theorem decodeWrite_cases {r : Reg} {v : Word} {i : Instr} (h : decodeWrite r v = some i) :
    (r = .cmd ∧ i = decodeCmd v) ∨ (r = .rxd ∧ i = decodeRxd v) := by
  cases r <;> cases h
  · exact .inl ⟨rfl, rfl⟩
  · exact .inr ⟨rfl, rfl⟩

/-- Every register write has one of the effects listed. -/
theorem writeEffect_of_regWrite {off : Offset} {v : Word} (h : s.regWrite off v = .next t) : WriteEffect s off v t := by
  rcases regWrite_cases s off v with ⟨hr, heq⟩ | ⟨r, hr, ⟨i, hi, heq⟩ | ⟨hd, heq⟩⟩ <;> rw [heq] at h
  · cases h; exact .reserved hr
  · obtain ⟨rfl, rfl⟩ | ⟨rfl, rfl⟩ := decodeWrite_cases hi
    · rw [decodeCmd, exec_decodeOp] at h
      by_cases hp : s.phase = .idle
      · rw [command_idle _ _ hp] at h
        cases h; exact .accepted hr hp
      · rw [command_busy _ _ hp] at h
        cases h; exact .lostCommand hr hp
    · by_cases hx : s.phase = .rx
      · obtain ⟨w, hw, ⟨hl, rfl⟩ | ⟨hl, hend⟩⟩ := exec_decodeRxd_cases hx h
        · exact .received hr hx hl hw
        · obtain ⟨hm, rfl⟩ | ⟨hm, rfl⟩ := endBuffer_cases (hw.phase_eq.trans hx) hend
          · exact .endedParse hr hx hl hw hm
          · exact .endedCksum hr hx hl hw hm
      · rw [exec_decodeRxd_elsewhere v hx] at h
        cases h; exact .lostByte hr hx
  · cases h; exact .plain r hr hd

/-- A plain write touches CFG, RPM_L, RPM_R or IGN, and each of them by the write of its own register. -/
theorem writePlain_cases (s : State) (r : Reg) (v : Word) :
    s.writePlain r v = s ∨ (r = .status ∧ s.writePlain r v = s.writeStatus v) ∨ s.writePlain r v = s.writeCfg v ∨
      s.writePlain r v = s.writeRpmL v ∨ s.writePlain r v = s.writeRpmR v := by
  cases r with
  | status => exact .inr (.inl ⟨rfl, rfl⟩)
  | cfg => exact .inr (.inr (.inl rfl))
  | rpmL => exact .inr (.inr (.inr (.inl rfl)))
  | rpmR => exact .inr (.inr (.inr (.inr rfl)))
  | _ => exact .inl rfl

@[simp] theorem writePlain_lastop (s : State) (r : Reg) (v : Word) : (s.writePlain r v).lastop = s.lastop := by
  obtain h | ⟨-, h⟩ | h | h | h := writePlain_cases s r v <;> simp [h]

@[simp] theorem writePlain_tel (s : State) (r : Reg) (v : Word) : (s.writePlain r v).tel = s.tel := by
  obtain h | ⟨-, h⟩ | h | h | h := writePlain_cases s r v <;> simp [h]

/-! ### Turns -/

/-- What a turn does to FRAMER: one constructor per kind of step. The turns of an agent whose step is not enabled are
`hostDone`, `noTransfer` and `noRetire` (notes/assumptions/2.md). -/
inductive TurnEffect (s : State) : State → Prop where
  | reset (ha : s.nextAgent = .environment) : TurnEffect s s.takeTurn.doReset
  | hostDone (ha : s.nextAgent = .host) (hp : s.env.prog[s.env.hpc]? = none) : TurnEffect s s.takeTurn
  | read (ha : s.nextAgent = .host) (off : Offset) (n : Nat) :
      TurnEffect s (s.takeTurn.hostRead off (s.takeTurn.regRead off) n)
  | write {off : Offset} {v : Word} {t : State} (ha : s.nextAgent = .host)
      (hp : s.env.prog[s.env.hpc]? = some (.wr off v)) (hw : WriteEffect s.takeTurn.hostNext off v t) : TurnEffect s t
  | noTransfer (ha : s.nextAgent = .transport) (hx : s.phase ≠ .tx) : TurnEffect s s.takeTurn
  | tookByte {b : Byte} (ha : s.nextAgent = .transport) (hx : s.phase = .tx) (hb : s.txbuf[s.txidx]? = some b)
      (hl : s.txidx + 1 < s.txbuf.length) : TurnEffect s (s.takeTurn.emit b false)
  | tookLastByte {b : Byte} (ha : s.nextAgent = .transport) (hx : s.phase = .tx) (hb : s.txbuf[s.txidx]? = some b)
      (hl : s.txidx + 1 = s.txbuf.length) : TurnEffect s ((s.takeTurn.emit b true).finish s.lastop (.ok .sent))
  | noRetire (ha : s.nextAgent = .framer) (hf : s.phase ≠ .fin) : TurnEffect s s.takeTurn
  | retiredError {op : Opcode} {code : ErrCode} {arg : Word} (ha : s.nextAgent = .framer) (hf : s.phase = .fin)
      (hp : s.pend = some ⟨op, .err code arg⟩) : TurnEffect s (s.takeTurn.recordError code arg).settle
  | retiredTelemetry {r : Telemetry} (ha : s.nextAgent = .framer) (hf : s.phase = .fin)
      (hp : s.pend = some ⟨0x4, .ok (.telemetry r)⟩) : TurnEffect s (s.takeTurn.noError.setTel r).settle
  | retiredChecksum {ck : Byte} (ha : s.nextAgent = .framer) (hf : s.phase = .fin)
      (hp : s.pend = some ⟨0x5, .ok (.checksum ck)⟩) : TurnEffect s (s.takeTurn.noError.setCkres ck).settle
  | retiredSent {op : Opcode} {x : OkValue} (ha : s.nextAgent = .framer) (hf : s.phase = .fin)
      (hp : s.pend = some ⟨op, .ok x⟩) (h4 : op ≠ 0x4) (h5 : op ≠ 0x5) : TurnEffect s s.takeTurn.noError.settle

theorem turnEffect_of_hostMove (ha : s.nextAgent = .host) (h : s.takeTurn.hostMove = .next t) : TurnEffect s t := by
  obtain ⟨hp, heq⟩ | ⟨off, n, heq⟩ | ⟨off, v, hp, heq⟩ := hostMove_cases s.takeTurn <;> rw [heq] at h
  · cases h; exact .hostDone ha hp
  · cases h; exact .read ha off n
  · exact .write ha hp (writeEffect_of_regWrite h)

theorem turnEffect_of_transfer (ha : s.nextAgent = .transport) (h : s.takeTurn.transfer = .next t) :
    TurnEffect s t := by
  obtain ⟨hx, rfl⟩ | ⟨hx, b, hb, ⟨hl, rfl⟩ | ⟨hl, rfl⟩⟩ := transfer_cases h
  · exact .noTransfer ha hx
  · exact .tookLastByte ha hx hb hl
  · have hlt : s.txidx < s.txbuf.length := (List.getElem?_eq_some_iff.mp hb).1
    exact .tookByte ha hx hb (lt_of_le_of_ne hlt hl)

theorem turnEffect_of_retire (ha : s.nextAgent = .framer) (h : s.takeTurn.retire = .next t) : TurnEffect s t := by
  obtain ⟨hf, rfl⟩ | ⟨hf, ⟨op, result⟩, hp, ⟨code, arg, rfl, rfl⟩ | ⟨x, u, rfl, hu, rfl⟩⟩ := retire_cases h
  · exact .noRetire ha hf
  · exact .retiredError ha hf hp
  · obtain ⟨rfl, r, rfl, rfl⟩ | ⟨rfl, ck, rfl, rfl⟩ | ⟨h4, h5, rfl⟩ := publishOk_cases hu
    · exact .retiredTelemetry ha hf hp
    · exact .retiredChecksum ha hf hp
    · exact .retiredSent ha hf hp h4 h5

/-- Every step that answers a next state has one of the effects listed. -/
theorem turnEffect_of_step (h : step s = .next t) : TurnEffect s t := by
  cases ha : s.nextAgent with
  | host => exact turnEffect_of_hostMove ha (step_host ha ▸ h)
  | transport => exact turnEffect_of_transfer ha (step_transport ha ▸ h)
  | framer => exact turnEffect_of_retire ha (step_framer ha ▸ h)
  | environment =>
    rw [step_environment ha] at h
    cases h; exact .reset ha

/-- The instruction that the host's next write carries is the one fetched. -/
theorem fetched_of_write {off : Offset} {v : Word} {r : Reg} (ha : s.nextAgent = .host)
    (hp : s.env.prog[s.env.hpc]? = some (.wr off v)) (hr : regAt off = some r) : s.fetched = decodeWrite r v := by
  simp [State.fetched, ha, hp, hr]

end Sys2Proof.Machine
end

section
/-!
The invariant of FRAMER: it says nothing of `env`, every operation keeps it, and so every step does. An operation that
starts or ends while no outcome can be read asks for that as `State.Blank`.
-/

namespace Sys2Proof.Machine

variable {s t u : State}

/-- No outcome can be read (70_reset_and_hazards.md R238). -/
def State.Blank (s : State) : Prop :=
  s.done = false ∧ s.err = false ∧ s.errcode = 0 ∧ s.errarg = 0 ∧ s.ckres = 0 ∧ s.tel = none

theorem blank_accept (s : State) (op : Opcode) : (s.accept op).Blank := ⟨rfl, rfl, rfl, rfl, rfl, rfl⟩

theorem State.Inv.blank (h : s.Inv) (hb : s.phase ≠ .idle) : s.Blank := h.busy_blank hb

theorem State.Inv.pend_none (h : s.Inv) (hf : s.phase ≠ .fin) : s.pend = none := by
  simpa using mt h.pend_iff_fin.mp hf

/-! ### Reset and the outside -/

theorem inv_reset : State.reset.Inv := by
  constructor <;> simp [State.reset]

/-- The invariant is about FRAMER alone. -/
theorem State.Inv.withEnv (h : s.Inv) (e : Env) : ({ s with env := e } : State).Inv := { h with }

theorem State.Inv.takeTurn (h : s.Inv) : s.takeTurn.Inv := h.withEnv _

theorem State.Inv.hostNext (h : s.Inv) : s.hostNext.Inv := h.withEnv _

theorem State.Inv.hostRead (h : s.Inv) (off : Offset) (v : Word) (n : Nat) : (s.hostRead off v n).Inv := h.withEnv _

theorem inv_doReset (s : State) : s.doReset.Inv := inv_reset.withEnv _

/-! ### Register writes that carry no instruction -/

theorem State.Inv.withIgn (h : s.Inv) (b : Bool) : ({ s with ign := b } : State).Inv := { h with }

theorem State.Inv.setIgn (h : s.Inv) : s.setIgn.Inv := h.withIgn _

theorem State.Inv.writeStatus (h : s.Inv) (v : Word) : (s.writeStatus v).Inv := by
  unfold State.writeStatus
  split
  · exact h.withIgn _
  · exact h

/-- Bit 0 alone is stored. -/
theorem State.Inv.writeCfg (h : s.Inv) (v : Word) : (s.writeCfg v).Inv :=
  { h with
    cfg_reserved := by
      have := (v.extractLsb' 0 1).isLt
      apply BitVec.eq_of_toNat_eq
      simp [Nat.shiftRight_eq_div_pow]
      omega }

theorem State.Inv.writePlain (h : s.Inv) (r : Reg) (v : Word) : (s.writePlain r v).Inv := by
  obtain heq | ⟨-, heq⟩ | heq | heq | heq := writePlain_cases s r v <;> rw [heq]
  · exact h
  · exact h.writeStatus v
  · exact h.writeCfg v
  · exact { h with }
  · exact { h with }

/-! ### Starting a command -/

/-- Acceptance leaves an idle state with no outcome. -/
theorem State.Inv.accept (h : s.Inv) (hi : s.phase = .idle) (op : Opcode) : (s.accept op).Inv :=
  { h with
    pend_legal := by simp [h.pend_none (by simp [hi])]
    tx_frame := by simp [hi]
    rx_open := by simp [hi]
    busy_blank := by simp
    err_iff := by simp
    errcode_range := by simp
    errarg_zero := by simp
    err_done := by simp
    tel_parse := by simp
    ckres_cksum := by simp
    done_clear := by simp }

theorem State.Inv.startTx (h : s.Inv) (hi : s.phase = .idle) (hb : s.Blank) {f : List Byte}
    (hf : RequestFrame s.lastop f) : (s.startTx f).Inv :=
  { h with
    pend_iff_fin := by simp [h.pend_none (by simp [hi])]
    tx_frame := fun _ => ⟨hf.length_bounds.1, hf⟩
    tx_bounds := ⟨hf.length_bounds.2, Nat.zero_le _⟩
    tx_empty := by simp
    rx_closed := fun _ => h.rx_closed (.inl hi)
    rx_open := by simp
    busy_blank := fun _ => hb }

theorem State.Inv.openParse (h : s.Inv) (hi : s.phase = .idle) (hb : s.Blank) (hop : s.lastop = 0x4) :
    s.openParse.Inv :=
  { h with
    pend_iff_fin := by simp [h.pend_none (by simp [hi])]
    tx_frame := by simp
    tx_empty := fun _ => h.tx_empty (.inl hi)
    rx_closed := by simp
    rx_open := fun _ => .inl ⟨rfl, hop⟩
    busy_blank := fun _ => hb }

theorem State.Inv.openCksum (h : s.Inv) (hi : s.phase = .idle) (hb : s.Blank) (hop : s.lastop = 0x5) :
    s.openCksum.Inv :=
  { h with
    pend_iff_fin := by simp [h.pend_none (by simp [hi])]
    tx_frame := by simp
    tx_empty := fun _ => h.tx_empty (.inl hi)
    rx_closed := by simp
    rx_open := fun _ => .inr ⟨rfl, hop, (h.rx_closed (.inl hi)).2.2⟩
    busy_blank := fun _ => hb }

/-- An outcome may pend when it is one of the operation in progress and nothing of it can be read yet. -/
theorem State.Inv.finish (h : s.Inv) (hb : s.Blank) {op : Opcode} {r : Result} (hop : op = s.lastop)
    (hl : Pending.Legal ⟨op, r⟩) : (s.finish op r).Inv :=
  { h with
    pend_iff_fin := by simp
    pend_legal := by simpa using ⟨hop, hl⟩
    tx_frame := by simp
    tx_empty := by simp
    rx_closed := by simp
    rx_open := by simp
    busy_blank := fun _ => hb }

theorem State.Inv.startCommand (h : s.Inv) (hi : s.phase = .idle) (op : Opcode) :
    (startCommand op (s.accept op)).Inv := by
  have ha := h.accept hi op
  have hb := blank_accept s op
  obtain ⟨f, hf, heq⟩ | ⟨rfl, heq⟩ | ⟨rfl, heq⟩ | ⟨code, arg, hl, heq⟩ := startCommand_cases op (s.accept op) <;> rw [heq]
  · exact ha.startTx hi hb hf
  · exact ha.openParse hi hb rfl
  · exact ha.openCksum hi hb rfl
  · exact ha.finish hb rfl hl

/-! ### The RX buffer -/

theorem State.Inv.appendRx (h : s.Inv) (hx : s.phase = .rx) (b : Byte) : (s.appendRx b).Inv :=
  { h with rx_closed := by simp [hx] }

theorem State.Inv.received {v : Word} (h : s.Inv) (hx : s.phase = .rx) (hw : Received s v u) : u.Inv := by
  cases hw with
  | nothing => exact h
  | byte => exact h.appendRx hx _

theorem telemetry14_flagsAgree (p : List Byte) : (telemetry14 p).FlagsAgree := trivial

theorem telemetry16_flagsAgree (p : List Byte) : (telemetry16 p).FlagsAgree := rfl

/-- Every outcome of a selected layout is one that a PARSE produces, if the layout decodes agreeing flags. -/
theorem parseLayout_legal (need : Nat) (dec : List Byte → Telemetry) (hdec : ∀ p, (dec p).FlagsAgree) (d : List Byte)
    (vck : Bool) : Pending.Legal ⟨0x4, parseLayout need dec d vck⟩ := by
  simp only [parseLayout]
  split
  · rfl
  · split
    · rfl
    · exact ⟨rfl, hdec _⟩

/-- Every outcome of the parse function is one that a PARSE produces. -/
theorem parseResponse_legal (d : List Byte) (vck : Bool) : Pending.Legal ⟨0x4, parseResponse d vck⟩ := by
  unfold parseResponse
  split
  · rfl
  · split
    · exact parseLayout_legal _ _ telemetry14_flagsAgree d vck
    · exact parseLayout_legal _ _ telemetry16_flagsAgree d vck
    · rfl

theorem State.Inv.lastop_of_parse (h : s.Inv) (hx : s.phase = .rx) (hm : s.rxmode = .parse) : s.lastop = 0x4 := by
  simpa [hm] using h.rx_open hx

theorem State.Inv.lastop_of_cksum (h : s.Inv) (hx : s.phase = .rx) (hm : s.rxmode ≠ .parse) : s.lastop = 0x5 := by
  obtain ⟨hp, -⟩ | ⟨-, hop, -⟩ := h.rx_open hx
  · exact absurd hp hm
  · exact hop

theorem State.Inv.writeEffect {off : Offset} {v : Word} (h : s.Inv) (hw : WriteEffect s off v t) : t.Inv := by
  cases hw with
  | reserved => exact h
  | accepted _ hi => exact h.startCommand hi _
  | lostCommand => exact h.setIgn
  | lostByte => exact h.setIgn
  | received _ hx _ hw => exact h.received hx hw
  | endedParse _ hx _ hw hm =>
    have hu := h.received hx hw
    have hxu := hw.phase_eq.trans hx
    exact hu.finish (hu.blank (by simp [hxu])) (hu.lastop_of_parse hxu hm).symm (parseResponse_legal _ _)
  | endedCksum _ hx _ hw hm =>
    have hu := h.received hx hw
    have hxu := hw.phase_eq.trans hx
    exact hu.finish (hu.blank (by simp [hxu])) (hu.lastop_of_cksum hxu hm).symm rfl
  | plain r => exact h.writePlain r v

/-! ### Transfers -/

/-- A byte may be taken where there is one, and in phase TX where there is another one after it. -/
theorem State.Inv.emit (h : s.Inv) (hroom : s.txidx < s.txbuf.length)
    (hnext : s.phase = .tx → s.txidx + 1 < s.txbuf.length) (b : Byte) (l : Bool) : (s.emit b l).Inv :=
  { h with
    tx_frame := fun hx => ⟨hnext hx, (h.tx_frame hx).2⟩
    tx_bounds := ⟨h.tx_bounds.1, hroom⟩
    tx_empty := fun hp => by
      have hempty := (h.tx_empty hp).1
      simp [hempty] at hroom }

/-- A frame in progress is that of an operation whose outcome is `Ok(sent)`. -/
theorem RequestFrame.sent_legal {op : Opcode} {f : List Byte} (h : RequestFrame op f) :
    Pending.Legal ⟨op, .ok .sent⟩ := by
  obtain ⟨h1, -⟩ | ⟨h2, -⟩ | ⟨h3, -⟩ := h
  · exact .inl h1
  · exact .inr (.inl h2)
  · exact .inr (.inr h3)

/-- The transfer of the last byte: the outcome pends, then the index moves on. -/
theorem State.Inv.emit_finish (h : s.Inv) (hx : s.phase = .tx) (b : Byte) (l : Bool) :
    ((s.emit b l).finish s.lastop (.ok .sent)).Inv := by
  obtain ⟨hroom, hframe⟩ := h.tx_frame hx
  have hfin : (s.finish s.lastop (.ok .sent)).Inv := h.finish (h.blank (by simp [hx])) rfl hframe.sent_legal
  exact hfin.emit hroom (by simp) b l

/-! ### Retiring -/

/-- What the outcome fields of a state must meet when it settles in phase IDLE. -/
theorem inv_settle (hcfg : s.cfg.extractLsb' 1 31 = 0) (herr : s.err = true ↔ s.errcode ≠ 0) (hcode : s.errcode ≤ 5)
    (harg : s.err = false → s.errarg = 0)
    (htel : ∀ r, s.tel = some r → s.err = false ∧ s.lastop = 0x4 ∧ r.FlagsAgree) (hck : s.ckres ≠ 0 → s.lastop = 0x5) :
    s.settle.Inv where
  cfg_reserved := hcfg
  pend_iff_fin := by simp
  pend_legal := by simp
  tx_frame := by simp
  tx_bounds := by simp
  tx_empty := by simp
  rx_closed := by simp
  rx_open := by simp
  busy_blank := by simp
  err_iff := herr
  errcode_range := hcode
  errarg_zero := harg
  err_done := fun _ => rfl
  tel_parse := fun r hr => ⟨rfl, htel r hr⟩
  ckres_cksum := fun hk => ⟨rfl, hck hk⟩
  done_clear := by simp

theorem ErrCode.code_ne_zero (c : ErrCode) : c.code ≠ 0 := by
  cases c <;> decide

theorem ErrCode.code_le (c : ErrCode) : c.code ≤ 5 := by
  cases c <;> decide

theorem State.Inv.settle_recordError (h : s.Inv) (hb : s.Blank) (code : ErrCode) (arg : Word) :
    (s.recordError code arg).settle.Inv := by
  obtain ⟨-, -, -, -, hck, htel⟩ := hb
  apply inv_settle
  case herr => simpa using code.code_ne_zero
  case hcode => exact code.code_le
  all_goals simp [h.cfg_reserved, hck, htel]

theorem State.Inv.settle_setTel (h : s.Inv) (hb : s.Blank) {r : Telemetry} (hop : s.lastop = 0x4) (hr : r.FlagsAgree) :
    (s.noError.setTel r).settle.Inv := by
  obtain ⟨-, -, -, -, hck, -⟩ := hb
  apply inv_settle <;> simp [h.cfg_reserved, hck, hop, hr]

theorem State.Inv.settle_setCkres (h : s.Inv) (hb : s.Blank) (ck : Byte) (hop : s.lastop = 0x5) :
    (s.noError.setCkres ck).settle.Inv := by
  obtain ⟨-, -, -, -, -, htel⟩ := hb
  apply inv_settle <;> simp [h.cfg_reserved, htel, hop]

theorem State.Inv.settle_noError (h : s.Inv) (hb : s.Blank) : s.noError.settle.Inv := by
  obtain ⟨-, -, -, -, hck, htel⟩ := hb
  apply inv_settle <;> simp [h.cfg_reserved, hck, htel]

/-! ### Turns -/

theorem State.Inv.turnEffect (h : s.Inv) (ht : TurnEffect s t) : t.Inv := by
  have hturn := h.takeTurn
  have blank_of_fin (hf : s.phase = .fin) : s.takeTurn.Blank := hturn.blank (by simp [hf])
  cases ht with
  | reset => exact inv_doReset _
  | hostDone | noTransfer | noRetire => exact hturn
  | read _ off n => exact hturn.hostRead off _ n
  | write _ _ hw => exact hturn.hostNext.writeEffect hw
  | tookByte _ _ _ hl => exact hturn.emit (Nat.lt_of_succ_lt hl) (fun _ => hl) _ false
  | tookLastByte _ hx => exact hturn.emit_finish hx _ true
  | retiredError _ hf => exact hturn.settle_recordError (blank_of_fin hf) _ _
  | retiredTelemetry _ hf hp =>
    obtain ⟨hop, -, hflags⟩ := h.pend_legal _ hp
    exact hturn.settle_setTel (blank_of_fin hf) hop.symm hflags
  | retiredChecksum _ hf hp =>
    obtain ⟨hop, -⟩ := h.pend_legal _ hp
    exact hturn.settle_setCkres (blank_of_fin hf) _ hop.symm
  | retiredSent _ hf => exact hturn.settle_noError (blank_of_fin hf)

/-- Settles O4: every effect of a turn keeps the invariant. -/
theorem everyStepKeepsTheInvariant : Obligations.EveryStepKeepsTheInvariant :=
  fun _ _ h hstep => h.turnEffect (turnEffect_of_step hstep)

/-- Settles O3. -/
theorem resetStateMeetsTheInvariant : Obligations.ResetStateMeetsTheInvariant := inv_reset

end Sys2Proof.Machine
end

section
/-!
The whole-machine rules: which effects change LASTOP, the telemetry and IGN, and what an accepted command reads.
-/

namespace Sys2Proof.Machine

variable {s t u : State}

/-! ### LASTOP -/

theorem Received.lastop_eq {v : Word} (h : Received s v u) : u.lastop = s.lastop := by
  cases h <;> rfl

theorem WriteEffect.lastop_cases {off : Offset} {v : Word} (h : WriteEffect s off v t) (hne : t.lastop ≠ s.lastop) :
    regAt off = some .cmd ∧ s.phase = .idle ∧ t.lastop = cmdOp v := by
  cases h with
  | accepted hr hi => exact ⟨hr, hi, by simp⟩
  | received _ _ _ hw => exact absurd hw.lastop_eq hne
  | endedParse _ _ _ hw => exact absurd hw.lastop_eq hne
  | endedCksum _ _ _ hw => exact absurd hw.lastop_eq hne
  | reserved | lostCommand | lostByte | plain => simp at hne

/-- Settles O46: of the effects of a turn, reset and an accepted command alone change LASTOP. -/
theorem lastopChangesOnlyAtAcceptance : Obligations.LastopChangesOnlyAtAcceptance := by
  intro s t hstep hne
  cases turnEffect_of_step hstep with
  | reset ha => exact .inl ⟨ha, rfl⟩
  | write ha hp hw =>
    obtain ⟨hr, hi, hop⟩ := hw.lastop_cases hne
    exact .inr ⟨ha, hi, _, _, hp, hr, hop⟩
  | _ => simp at hne

/-! ### Telemetry -/

theorem Received.tel_eq {v : Word} (h : Received s v u) : u.tel = s.tel := by
  cases h <;> rfl

theorem WriteEffect.tel_cases {off : Offset} {v : Word} (h : WriteEffect s off v t) (hne : t.tel ≠ s.tel) :
    regAt off = some .cmd ∧ s.phase = .idle ∧ t.tel = none := by
  cases h with
  | accepted hr hi => exact ⟨hr, hi, by simp⟩
  | received _ _ _ hw => exact absurd hw.tel_eq hne
  | endedParse _ _ _ hw => exact absurd hw.tel_eq hne
  | endedCksum _ _ _ hw => exact absurd hw.tel_eq hne
  | reserved | lostCommand | lostByte | plain => simp at hne

/-- Settles O47: reset and an accepted command empty the telemetry, and the retire step of a PARSE alone writes it. -/
theorem telemetryChangesOnlyAtParseRetireOrAcceptance : Obligations.TelemetryChangesOnlyAtParseRetireOrAcceptance := by
  intro s t hstep hne
  cases turnEffect_of_step hstep with
  | reset ha => exact .inl ⟨ha, rfl⟩
  | write ha hp hw =>
    obtain ⟨hr, hi, htel⟩ := hw.tel_cases hne
    exact .inr (.inl ⟨ha, hi, htel, _, fetched_of_write ha hp hr, format_decodeCmd _⟩)
  | retiredTelemetry ha hf hp => exact .inr (.inr ⟨ha, hf, rfl, _, hp, rfl⟩)
  | _ => simp at hne

/-! ### IGN -/

theorem Received.ign_eq {v : Word} (h : Received s v u) : u.ign = s.ign := by
  cases h <;> rfl

/-- A plain write leaves IGN, unless it is one of STATUS with bit 3 set. -/
theorem writePlain_ign_cases (s : State) (r : Reg) (v : Word) :
    (s.writePlain r v).ign = s.ign ∨ (r = .status ∧ v.getLsbD 3 = true ∧ (s.writePlain r v).ign = false) := by
  obtain h | ⟨hr, h⟩ | h | h | h := writePlain_cases s r v
  case inr.inl =>
    rw [h, State.writeStatus_ign]
    cases v.getLsbD 3 with
    | false => exact .inl (by simp)
    | true => exact .inr ⟨hr, rfl, by simp⟩
  all_goals exact .inl (by simp [h])

/-- A write leaves IGN, clears it by STATUS bit 3, or sets it because it is lost. -/
theorem WriteEffect.ign_cases {off : Offset} {v : Word} (h : WriteEffect s off v t) :
    t.ign = s.ign ∨
    (t.ign = false ∧ regAt off = some .status ∧ v.getLsbD 3 = true) ∨
    (t.ign = true ∧ ((regAt off = some .cmd ∧ s.phase ≠ .idle) ∨ (regAt off = some .rxd ∧ s.phase ≠ .rx))) := by
  cases h with
  | reserved => exact .inl rfl
  | accepted => exact .inl (by simp)
  | lostCommand hr hi => exact .inr (.inr ⟨rfl, .inl ⟨hr, hi⟩⟩)
  | lostByte hr hx => exact .inr (.inr ⟨rfl, .inr ⟨hr, hx⟩⟩)
  | received _ _ _ hw => exact .inl hw.ign_eq
  | endedParse _ _ _ hw => exact .inl hw.ign_eq
  | endedCksum _ _ _ hw => exact .inl hw.ign_eq
  | plain r hr _ =>
    obtain h | ⟨rfl, hv, h⟩ := writePlain_ign_cases s r v
    · exact .inl h
    · exact .inr (.inl ⟨h, hr, hv⟩)

/-- A turn that changes IGN is the reset, which clears it, or a write of the host. -/
theorem TurnEffect.ign_cases (h : TurnEffect s t) (hne : t.ign ≠ s.ign) :
    (s.nextAgent = .environment ∧ t.ign = false) ∨
    (s.nextAgent = .host ∧ ∃ off v, s.env.prog[s.env.hpc]? = some (.wr off v) ∧
      WriteEffect s.takeTurn.hostNext off v t) := by
  cases h with
  | reset ha => exact .inl ⟨ha, rfl⟩
  | write ha hp hw => exact .inr ⟨ha, _, _, hp, hw⟩
  | _ => simp at hne

/-- Settles O48: reset and a write of STATUS clear IGN, and a lost write alone sets it. -/
theorem ignIsStickyAndSetOnlyByLostWrites : Obligations.IgnIsStickyAndSetOnlyByLostWrites := by
  intro s t hstep
  have heff := turnEffect_of_step hstep
  refine ⟨fun hs ht => ?_, fun hs ht => ?_⟩
  · obtain ⟨ha, -⟩ | ⟨ha, off, v, hp, hw⟩ := heff.ign_cases (by simp [hs, ht])
    · exact .inl ha
    · obtain hkeep | ⟨-, hr, hv⟩ | ⟨hset, -⟩ := hw.ign_cases
      · simp [hs, ht] at hkeep
      · exact .inr ⟨ha, off, v, hp, hr, hv⟩
      · simp [ht] at hset
  · obtain ⟨-, hclear⟩ | ⟨ha, off, v, hp, hw⟩ := heff.ign_cases (by simp [hs, ht])
    · simp [ht] at hclear
    · obtain hkeep | ⟨hclear, -⟩ | ⟨-, ⟨hr, hi⟩ | ⟨hr, hx⟩⟩ := hw.ign_cases
      · simp [hs, ht] at hkeep
      · simp [ht] at hclear
      · exact ⟨ha, _, fetched_of_write ha hp hr, .inl ⟨format_decodeCmd v, hi⟩⟩
      · exact ⟨ha, _, fetched_of_write ha hp hr, .inr ⟨format_decodeRxd v, hx⟩⟩

/-! ### What a command reads -/

/-- Acceptance forgets the previous outcome: two idle states with the same operands are then equal but for IGN. -/
theorem accept_eq_of_sameOperands (hs : s.Inv) (ht : t.Inv) (his : s.phase = .idle) (hit : t.phase = .idle)
    (hst : s.SameOperands t) (op : Opcode) : { s.accept op with ign := t.ign, env := t.env } = t.accept op := by
  obtain ⟨hcfg, hl, hr⟩ := hst
  obtain ⟨hsbuf, hsidx⟩ := hs.tx_empty (.inl his)
  obtain ⟨htbuf, htidx⟩ := ht.tx_empty (.inl hit)
  obtain ⟨hsmode, hsrx, hsvck⟩ := hs.rx_closed (.inl his)
  obtain ⟨htmode, htrx, htvck⟩ := ht.rx_closed (.inl hit)
  have hspend := hs.pend_none (by simp [his])
  have htpend := ht.pend_none (by simp [hit])
  simp [State.accept, *]

/-- A command neither reads nor writes IGN and the agents outside FRAMER. -/
theorem startCommand_withIgnEnv (op : Opcode) (s : State) (b : Bool) (e : Env) :
    startCommand op { s with ign := b, env := e } = { startCommand op s with ign := b, env := e } := by
  unfold startCommand
  split
  case h_3 =>
    simp only [State.startRpm]
    split <;> rfl
  all_goals rfl

/-- Settles O49: acceptance leaves the same state but for IGN, and the command starts from it alike. -/
theorem commandsDependOnOperandsAlone : Obligations.CommandsDependOnOperandsAlone := by
  intro i s t s' t' hi hs ht his hit hst hs' ht'
  obtain ⟨op, rfl⟩ := exists_decodeOp_of_format_cmd hi
  rw [exec_decodeOp, command_idle _ _ his] at hs'
  rw [exec_decodeOp, command_idle _ _ hit] at ht'
  cases hs'
  cases ht'
  have hstart : startCommand op (t.accept op) =
      { startCommand op (s.accept op) with ign := t.ign, env := t.env } := by
    rw [← accept_eq_of_sameOperands hs ht his hit hst op]
    exact startCommand_withIgnEnv op (s.accept op) t.ign t.env
  rw [hstart]

end Sys2Proof.Machine
end

section
/-! The registers after reset, and the fields of STATUS. -/

namespace Sys2Proof.Machine

theorem readReg_reset (r : Reg) : State.reset.readReg r = 0 := by
  cases r <;> rfl

theorem regRead_reset (off : Offset) : State.reset.regRead off = 0 := by
  unfold State.regRead
  split
  · exact readReg_reset _
  · rfl

/-- Settles O1. -/
theorem resetLeavesTheListedValues : Obligations.ResetLeavesTheListedValues :=
  ⟨rfl, rfl, rfl, rfl, rfl, rfl, rfl, rfl, rfl, rfl, rfl, rfl, rfl, rfl, rfl, rfl, rfl, rfl, rfl, rfl, regRead_reset⟩

/-! ### STATUS -/

theorem layoutField_eq (s : State) :
    s.layoutField = match s.tel with
      | none => 0#2
      | some ⟨.l14, _, _⟩ => 1#2
      | some ⟨.l16 _ _ _, _, _⟩ => 2#2 := by
  unfold State.layoutField
  cases s.tel with
  | none => rfl
  | some t => obtain ⟨layout, _, _⟩ := t; cases layout <;> rfl

theorem busy_eq_decide (s : State) : s.busy = decide (s.phase ≠ .idle) := by
  cases hp : s.phase <;> simp [State.busy, hp]

/-- STATUS as a number. -/
theorem statusWord_toNat (s : State) :
    s.statusWord.toNat = s.busy.toNat + 2 * s.done.toNat + 4 * s.err.toNat + 8 * s.ign.toNat + 16 * s.errcode.toNat
      + 256 * s.layoutField.toNat + 4096 * s.lastop.toNat := by
  rw [State.statusWord, BitVec.toNat_append, ← Nat.shiftLeft_add_eq_or_of_lt (BitVec.ofBool s.busy).isLt,
    BitVec.toNat_append, ← Nat.shiftLeft_add_eq_or_of_lt (BitVec.ofBool s.done).isLt,
    BitVec.toNat_append, ← Nat.shiftLeft_add_eq_or_of_lt (BitVec.ofBool s.err).isLt,
    BitVec.toNat_append, ← Nat.shiftLeft_add_eq_or_of_lt (BitVec.ofBool s.ign).isLt,
    BitVec.toNat_append, ← Nat.shiftLeft_add_eq_or_of_lt s.errcode.isLt,
    BitVec.toNat_append, ← Nat.shiftLeft_add_eq_or_of_lt s.layoutField.isLt,
    BitVec.toNat_append, ← Nat.shiftLeft_add_eq_or_of_lt (0#2).isLt,
    BitVec.toNat_append, ← Nat.shiftLeft_add_eq_or_of_lt s.lastop.isLt]
  simp only [Nat.shiftLeft_eq, BitVec.toNat_ofBool, BitVec.toNat_ofNat]
  omega

/-- A field of STATUS is the number that its bits spell. -/
theorem statusWord_extract {s : State} {start len : Nat} {x : BitVec len}
    (h : s.statusWord.toNat / 2 ^ start % 2 ^ len = x.toNat) : s.statusWord.extractLsb' start len = x := by
  apply BitVec.eq_of_toNat_eq
  rw [BitVec.extractLsb'_toNat, Nat.shiftRight_eq_div_pow, h]

/-- A one-bit field of STATUS. -/
theorem statusWord_getLsbD {s : State} {i : Nat} {b : Bool} (h : s.statusWord.toNat / 2 ^ i % 2 = b.toNat) :
    s.statusWord.getLsbD i = b := by
  rw [BitVec.getLsbD, Nat.testBit_eq_decide_div_mod_eq, h]
  cases b <;> rfl

/-- STATUS (10_state.md R31): each field at its bits, and 0 at the reserved ones. -/
theorem statusWord_fields (s : State) :
    s.statusWord.getLsbD 0 = s.busy ∧ s.statusWord.getLsbD 1 = s.done ∧ s.statusWord.getLsbD 2 = s.err ∧
    s.statusWord.getLsbD 3 = s.ign ∧ s.statusWord.extractLsb' 4 4 = s.errcode ∧
    s.statusWord.extractLsb' 8 2 = s.layoutField ∧ s.statusWord.extractLsb' 10 2 = 0#2 ∧
    s.statusWord.extractLsb' 12 4 = s.lastop ∧ s.statusWord.extractLsb' 16 16 = 0#16 := by
  have hval := statusWord_toNat s
  have hbusy := s.busy.toNat_lt
  have hdone := s.done.toNat_lt
  have herr := s.err.toNat_lt
  have hign := s.ign.toNat_lt
  have hcode := s.errcode.isLt
  have hlayout := s.layoutField.isLt
  have hop := s.lastop.isLt
  have hres : (0#2).toNat = 0 := rfl
  have hhigh : (0#16).toNat = 0 := rfl
  refine ⟨statusWord_getLsbD ?_, statusWord_getLsbD ?_, statusWord_getLsbD ?_, statusWord_getLsbD ?_,
    statusWord_extract ?_, statusWord_extract ?_, statusWord_extract ?_, statusWord_extract ?_, statusWord_extract ?_⟩ <;>
    omega

/-- Settles O39: the fields that STATUS shows, with BUSY and LAYOUT as computed from the state. -/
theorem statusFieldsStandAtTheirBits : Obligations.StatusFieldsStandAtTheirBits := by
  intro s v
  obtain ⟨hbusy, hdone, herr, hign, hcode, hlayout, hres, hop, hhigh⟩ := statusWord_fields s
  exact ⟨hbusy.trans (busy_eq_decide s), hdone, herr, hign, hcode, hlayout.trans (layoutField_eq s), hres, hop, hhigh,
    rfl, rfl⟩

end Sys2Proof.Machine
end

section
/-!
The register space: which offsets reach which register, what a read answers and a write does there, and the turns in
which the host makes an access.
-/

namespace Sys2Proof.Machine

variable {s t : State} {off : Offset} {v : Word}

/-! ### The offsets of a register -/

/-- The aligned offset as a number. -/
theorem toNat_and_aligned (off : Offset) : (off &&& 0xFC#8).toNat = 4 * (off.toNat / 4) := by
  revert off
  decide

/-- The register decoder does not read offset bits 1:0 (20_memory.md R54). -/
@[simp] theorem regAt_and_aligned (off : Offset) : regAt (off &&& 0xFC#8) = regAt off := by
  have hword : (off &&& 0xFC#8).extractLsb' 2 6 = off.extractLsb' 2 6 := by
    revert off
    decide
  rw [regAt, hword, regAt]

/-- A register is reached from the four offsets of its word, and from no other (20_memory.md R53, R54). -/
theorem regAt_eq_some_iff {r : Reg} : regAt off = some r ↔ 4 * (off.toNat / 4) = (regOffset r).toNat := by
  constructor
  · intro h
    have hword : (off.extractLsb' 2 6).toNat = off.toNat / 4 := by
      have := off.isLt
      simp [Nat.shiftRight_eq_div_pow]
      omega
    unfold regAt at h
    rw [hword] at h
    split at h <;> cases h <;> simp [regOffset, *]
  · intro h
    have haligned : off &&& 0xFC#8 = regOffset r := BitVec.eq_of_toNat_eq ((toNat_and_aligned off).trans h)
    rw [← regAt_and_aligned, haligned, regAt_regOffset]

/-! ### Reads -/

theorem regRead_of_regAt {r : Reg} (hr : regAt off = some r) : s.regRead off = s.readReg r := by
  simp [State.regRead, hr]

theorem regRead_of_reserved (hr : regAt off = none) : s.regRead off = 0 := by
  simp [State.regRead, hr]

theorem regRead_and_aligned (s : State) (off : Offset) : s.regRead (off &&& 0xFC#8) = s.regRead off := by
  simp [State.regRead]

/-- A read answers from FRAMER's own state alone (20_memory.md R51). -/
@[simp] theorem readReg_takeTurn (s : State) (r : Reg) : s.takeTurn.readReg r = s.readReg r := by
  cases r <;> rfl

@[simp] theorem regRead_takeTurn (s : State) (off : Offset) : s.takeTurn.regRead off = s.regRead off := by
  simp [State.regRead]

/-- Settles O60: each offset reaches the register of its word, and a reserved one none. -/
theorem regReadFollowsTheRegisterMap : Obligations.RegReadFollowsTheRegisterMap := by
  rintro s off a rfl
  have read {r : Reg} (h : 4 * (off.toNat / 4) = (regOffset r).toNat) : s.regRead off = s.readReg r :=
    regRead_of_regAt (regAt_eq_some_iff.mpr h)
  refine ⟨read (r := .cmd), read (r := .status), read (r := .errArg), read (r := .cfg), read (r := .rpmL),
    read (r := .rpmR), read (r := .rxd), fun h => ?_, fun h => ?_⟩
  · rw [read (r := .ckRes) h, State.readReg, BitVec.setWidth_eq_append (by decide)]
    rfl
  · exact regRead_of_reserved (regAt_reserved off (by omega))

/-! ### Writes -/

theorem regWrite_of_reserved (hr : regAt off = none) : s.regWrite off v = .next s := by
  simp [State.regWrite, hr]

theorem regWrite_of_decodeWrite {r : Reg} {i : Instr} (hr : regAt off = some r) (hd : decodeWrite r v = some i) :
    s.regWrite off v = exec i s := by
  simp [State.regWrite, hr, hd]

theorem regWrite_of_plain {r : Reg} (hr : regAt off = some r) (hd : decodeWrite r v = none) :
    s.regWrite off v = .next (s.writePlain r v) := by
  simp [State.regWrite, hr, hd]

theorem regWrite_and_aligned (s : State) (off : Offset) (v : Word) :
    s.regWrite (off &&& 0xFC#8) v = s.regWrite off v := by
  simp [State.regWrite]

/-- CFG keeps bit 0 of the word written (10_state.md R28). -/
theorem writeCfg_eq (s : State) (v : Word) : s.writeCfg v = { s with cfg := v &&& 1#32 } := by
  have hbit : (v.extractLsb' 0 1).setWidth 32 = v &&& 1#32 := by
    apply BitVec.eq_of_toNat_eq
    simp [Nat.and_one_is_mod]
    omega
  rw [State.writeCfg, hbit]

/-- A register that carries no instruction and that no plain write stores to ignores the write (10_state.md R26). -/
theorem writePlain_of_readOnly {r : Reg} (hstatus : r ≠ .status) (hcfg : r ≠ .cfg) (hl : r ≠ .rpmL) (hr : r ≠ .rpmR) :
    s.writePlain r v = s := by
  cases r with
  | status => exact absurd rfl hstatus
  | cfg => exact absurd rfl hcfg
  | rpmL => exact absurd rfl hl
  | rpmR => exact absurd rfl hr
  | _ => rfl

/-- CMD and RXD alone take instructions (20_memory.md R52). -/
theorem decodeWrite_eq_none {r : Reg} (hcmd : r ≠ .cmd) (hrxd : r ≠ .rxd) : decodeWrite r v = none := by
  cases r with
  | cmd => exact absurd rfl hcmd
  | rxd => exact absurd rfl hrxd
  | _ => rfl

/-- Settles O42: the decoder of offsets reads bits 7:2 alone, and no instruction stops the machine. -/
theorem accessesAreAlignedAndNeverFault : Obligations.AccessesAreAlignedAndNeverFault := by
  intro s off v
  refine ⟨(regRead_and_aligned s off).symm, (regWrite_and_aligned s off v).symm, fun h => ?_, regWrite_next s off v⟩
  have hr := regAt_reserved off h
  exact ⟨regRead_of_reserved hr, regWrite_of_reserved hr⟩

/-- Settles O43: each offset reaches the register of its word, and the register's kind says what the write does. -/
theorem regWriteFollowsItsCases : Obligations.RegWriteFollowsItsCases := by
  rintro s off v a rfl
  have reach {r : Reg} (h : 4 * (off.toNat / 4) = (regOffset r).toNat) : regAt off = some r :=
    regAt_eq_some_iff.mpr h
  refine ⟨fun h => regWrite_of_decodeWrite (reach (r := .cmd) h) rfl,
    fun h => regWrite_of_plain (reach (r := .status) h) rfl, fun h => ?_,
    fun h => regWrite_of_plain (reach (r := .rpmL) h) rfl, fun h => regWrite_of_plain (reach (r := .rpmR) h) rfl,
    fun h => regWrite_of_decodeWrite (reach (r := .rxd) h) rfl, fun hcmd hstatus hcfg hl hr hrxd => ?_⟩
  · rw [regWrite_of_plain (reach (r := .cfg) h) rfl, State.writePlain, writeCfg_eq]
  · cases hat : regAt off with
    | none => exact regWrite_of_reserved hat
    | some r =>
      have hoff := regAt_eq_some_iff.mp hat
      have ne {q : Reg} (hq : 4 * (off.toNat / 4) ≠ (regOffset q).toNat) : r ≠ q := fun h => hq (h ▸ hoff)
      rw [regWrite_of_plain hat (decodeWrite_eq_none (ne (q := .cmd) hcmd) (ne (q := .rxd) hrxd)),
        writePlain_of_readOnly (ne (q := .status) hstatus) (ne (q := .cfg) hcfg) (ne (q := .rpmL) hl)
          (ne (q := .rpmR) hr)]

/-! ### The host's turn -/

/-- When the host moves, it makes the transaction of the statement at its program counter. -/
theorem step_hostOp {op : HostOp} (ha : s.nextAgent = .host) (hp : s.env.prog[s.env.hpc]? = some op) :
    step s = s.takeTurn.hostOp op := by
  simp [step_host ha, State.hostMove, hp]

/-- Settles O6: the lanes of a word decode as the word, and the write runs what its register decodes. -/
theorem stepRunsTheInstructionTheHostWrites : Obligations.StepRunsTheInstructionTheHostWrites := by
  intro s off v i ha hp hi
  obtain ⟨r, hr, hd⟩ : ∃ r, regAt off = some r ∧ decodeWrite r v = some i := by
    obtain ⟨hr, hi⟩ | ⟨hr, hi⟩ := hi
    · rw [decode_cmd_lanes] at hi
      exact ⟨.cmd, hr, congrArg some (Except.ok.inj hi)⟩
    · rw [decode_rxd_lanes] at hi
      exact ⟨.rxd, hr, congrArg some (Except.ok.inj hi)⟩
  calc step s = s.takeTurn.hostNext.regWrite off v := step_hostOp ha hp
    _ = exec i s.takeTurn.hostNext := regWrite_of_decodeWrite hr hd

/-- STATUS bit 0 is 0 exactly in phase IDLE (10_state.md R32). -/
theorem statusWord_getLsbD_zero (s : State) : s.statusWord.getLsbD 0 = decide (s.phase ≠ .idle) :=
  (statusWord_fields s).1.trans (busy_eq_decide s)

theorem regRead_status (s : State) : s.regRead (regOffset .status) = s.statusWord :=
  regRead_of_regAt (regAt_regOffset .status)

/-- Settles O44: a read answers from the registers and writes the host's record and program counter alone. -/
theorem hostReadsLeaveFramerAlone : Obligations.HostReadsLeaveFramerAlone := by
  intro s ha
  refine ⟨fun off hp => ?_, fun hp => ?_, fun off k b target hp => ?_⟩ <;>
    simp only [step_hostOp ha hp, State.hostOp, regRead_takeTurn]
  · rfl
  · rw [regRead_status, statusWord_getLsbD_zero]
    by_cases hi : s.phase = .idle <;> simp [hi, State.hostRead, State.takeTurn, regOffset]
  · rfl

end Sys2Proof.Machine
end

section
/-! The TX port: what it shows, one transfer, and the turns that leave the byte offered as it is. -/

namespace Sys2Proof.Machine

variable {s t : State}

/-! ### A transfer -/

theorem txData?_of_tx (hx : s.phase = .tx) : s.txData? = s.txbuf[s.txidx]? := by
  simp [State.txData?, hx]

theorem txLast_of_tx (hx : s.phase = .tx) : s.txLast = decide (s.txidx + 1 = s.txbuf.length) := by
  simp [State.txLast, hx, beq_eq_decide]

theorem transfer_elsewhere (hx : s.phase ≠ .tx) : s.transfer = .next s := by
  simp [State.transfer, hx]

/-- A transfer takes the byte at the index, and the last one ends the operation (20_memory.md R58). -/
theorem transfer_of_offered {b : Byte} (hx : s.phase = .tx) (hb : s.txbuf[s.txidx]? = some b) :
    s.transfer = .next (if s.txidx + 1 = s.txbuf.length then (s.emit b true).finish s.lastop (.ok .sent)
      else s.emit b false) := by
  have hdata : s.txData? = some b := (txData?_of_tx hx).trans hb
  by_cases hl : s.txidx + 1 = s.txbuf.length <;> simp [State.transfer, hx, hdata, txLast_of_tx hx, hl]

/-- Settles O34: the offer read off the port, and its transfer. -/
theorem transferTakesTheOfferedByte : Obligations.TransferTakesTheOfferedByte := by
  refine fun s => ⟨txValid_eq_true, transfer_elsewhere, fun b hx hb => ⟨?_, ?_, transfer_of_offered hx hb⟩⟩
  · exact (txData?_of_tx hx).trans hb
  · have hlt : s.txidx < s.txbuf.length := (List.getElem?_eq_some_iff.mp hb).1
    rw [txLast_of_tx hx, decide_eq_true_iff]
    omega

/-! ### What leaves the offer -/

/-- `t` offers on the TX port what `s` does. -/
structure State.SameOffer (s t : State) : Prop where
  phase_eq : t.phase = s.phase
  txbuf_eq : t.txbuf = s.txbuf
  txidx_eq : t.txidx = s.txidx

theorem State.SameOffer.txData?_eq (h : s.SameOffer t) : t.txData? = s.txData? := by
  simp [State.txData?, State.txValid, h.phase_eq, h.txbuf_eq, h.txidx_eq]

theorem State.SameOffer.txLast_eq (h : s.SameOffer t) : t.txLast = s.txLast := by
  simp [State.txLast, State.txValid, h.phase_eq, h.txbuf_eq, h.txidx_eq]

theorem sameOffer_writePlain (s : State) (r : Reg) (v : Word) : s.SameOffer (s.writePlain r v) := by
  obtain h | ⟨-, h⟩ | h | h | h := writePlain_cases s r v <;> constructor <;> simp [h]

/-- In phase TX no command is accepted and no RX buffer is open, so a write leaves the offer (70_reset_and_hazards.md
R247 (b)). -/
theorem WriteEffect.sameOffer {off : Offset} {v : Word} (h : WriteEffect s off v t) (hx : s.phase = .tx) :
    s.SameOffer t := by
  cases h with
  | reserved | lostCommand | lostByte => exact ⟨rfl, rfl, rfl⟩
  | plain r => exact sameOffer_writePlain s r v
  | accepted _ hi => simp [hx] at hi
  | received _ hrx | endedParse _ hrx | endedCksum _ hrx => simp [hx] at hrx

/-- In phase TX a turn leaves the offer, unless it is a transfer or the reset. -/
theorem TurnEffect.sameOffer (h : TurnEffect s t) (hx : s.phase = .tx)
    (ha : s.nextAgent = .host ∨ s.nextAgent = .framer) : s.SameOffer t := by
  cases h with
  | hostDone | read | noRetire => exact ⟨rfl, rfl, rfl⟩
  | write _ _ hw =>
    obtain ⟨hphase, hbuf, hidx⟩ := hw.sameOffer hx
    exact ⟨hphase, hbuf, hidx⟩
  | reset hn | noTransfer hn | tookByte hn | tookLastByte hn => simp [hn] at ha
  | retiredError _ hf | retiredTelemetry _ hf | retiredChecksum _ hf | retiredSent _ hf => simp [hx] at hf

/-- Settles O35: a turn of the host or of FRAMER leaves the offer, and the port's signals are read off it. -/
theorem offeredByteIsNeverWithdrawn : Obligations.OfferedByteIsNeverWithdrawn := by
  intro s t hx ha hstep
  have h := (turnEffect_of_step hstep).sameOffer hx ha
  exact ⟨h.phase_eq.trans hx, h.txbuf_eq, h.txidx_eq, h.txData?_eq, h.txLast_eq⟩

end Sys2Proof.Machine
end

section
/-!
Decoding and encoding. Every CMD and RXD instruction is the decoding of the word of its own fields, every well-formed
response row that of its declared-length byte; so each round trip is one about fields and one about words.
-/

namespace Sys2Proof.Machine

/-! ### The word of a decoded instruction -/

theorem encodeWord_decodeOp (op : Opcode) : encodeWord (decodeOp op) = cmdWord op := by
  obtain rfl | rfl | rfl | rfl | rfl | rfl | rfl | rfl | rfl | rfl | rfl | rfl | rfl | rfl | rfl | rfl :=
    opcode_cases op <;> rfl

theorem encodeWord_decodeRxd (v : Word) :
    encodeWord (decodeRxd v) = rxdWord (rxdNodataField v) (rxdLastField v) (rxdDataField v) := by
  unfold decodeRxd
  cases rxdNodataField v <;> cases rxdLastField v <;> rfl

theorem encodeWord_selectLayout (n : Byte) : encodeWord (selectLayout n).toInstr = n.setWidth 32 := by
  by_cases h14 : n = 14#8
  · subst h14; rfl
  by_cases h16 : n = 16#8
  · subst h16; rfl
  rw [selectLayout_other n h14 h16]
  rfl

theorem format_selectLayout (n : Byte) : (selectLayout n).toInstr.format = .response := by
  cases selectLayout n <;> rfl

/-! ### The bits a decoder reads -/

theorem cmdWord_cmdOp (v : Word) : cmdWord (cmdOp v) = v &&& 0x0000000F#32 := by
  apply BitVec.eq_of_toNat_eq
  have hmask : (v &&& 0x0000000F#32).toNat = v.toNat % 16 := Nat.and_two_pow_sub_one_eq_mod v.toNat 4
  have hop : (cmdOp v).toNat = v.toNat % 16 := by simp [cmdOp, BitVec.extractLsb'_toNat]
  rw [cmdWord, BitVec.toNat_setWidth, hop, hmask]
  omega

theorem rxdWord_fields (v : Word) :
    rxdWord (rxdNodataField v) (rxdLastField v) (rxdDataField v) = v &&& 0x000003FF#32 := by
  apply BitVec.eq_of_toNat_eq
  have hmask : (v &&& 0x000003FF#32).toNat = v.toNat % 1024 := Nat.and_two_pow_sub_one_eq_mod v.toNat 10
  have hdata : (rxdDataField v).toNat = v.toNat % 256 := by simp [rxdDataField, BitVec.extractLsb'_toNat]
  have hlast : (rxdLastField v).toNat = v.toNat / 256 % 2 := Nat.toNat_testBit v.toNat 8
  have hnodata : (rxdNodataField v).toNat = v.toNat / 512 % 2 := Nat.toNat_testBit v.toNat 9
  rw [rxdWord_toNat, hdata, hlast, hnodata, hmask]
  omega

/-- Settles O9: the word of a decoded instruction is made of the fields that its decoder reads. -/
theorem encodingUndoesDecodingOfTheReadBits : Obligations.EncodingUndoesDecodingOfTheReadBits := fun v n =>
  ⟨(encodeWord_decodeOp _).trans (cmdWord_cmdOp v), format_decodeCmd v,
    (encodeWord_decodeRxd v).trans (rxdWord_fields v), format_decodeRxd v,
    encodeWord_selectLayout n, format_selectLayout n⟩

/-! ### Every instruction is a decoding -/

theorem exists_rxdWord_of_format_rxd {i : Instr} (h : i.format = .rxd) :
    ∃ nodata last data, i = decodeRxd (rxdWord nodata last data) := by
  cases i with
  | rxdByte data => exact ⟨false, false, data, by simp [decodeRxd]⟩
  | rxdLast data => exact ⟨false, true, data, by simp [decodeRxd]⟩
  | rxdEnd data => exact ⟨true, true, data, by simp [decodeRxd]⟩
  | rxdNop data => exact ⟨true, false, data, by simp [decodeRxd]⟩
  | _ => cases h

theorem exists_selectLayout_of_format_response {i : Instr} (hwf : i.wf = true) (h : i.format = .response) :
    ∃ n, i = (selectLayout n).toInstr := by
  cases i with
  | respL14 => exact ⟨14#8, rfl⟩
  | respL16 => exact ⟨16#8, rfl⟩
  | respUnknown n =>
    obtain ⟨h14, h16⟩ : n ≠ 14#8 ∧ n ≠ 16#8 := by simpa [Instr.wf] using hwf
    exact ⟨n, by rw [selectLayout_other n h14 h16]; rfl⟩
  | _ => cases h

/-! ### The bytes of an instruction -/

theorem encode_eq_lanes {i : Instr} (h : i.format = .cmd ∨ i.format = .rxd) : encode i = lanes (encodeWord i) := by
  obtain h | h := h <;> simp [encode, h]

theorem encode_selectLayout (n : Byte) : encode (selectLayout n).toInstr = [0#8, 0#8, 0#8, 0#8, n] := by
  have hbyte : (n.setWidth 32).extractLsb' 0 8 = n := by
    simp [BitVec.extractLsb'_setWidth_of_le]
  simp [encode, format_selectLayout, encodeWord_selectLayout, hbyte]

/-- Settles O8: in each format the instruction is a decoding, so its word is made of the fields read back. -/
theorem decodingUndoesEncoding : Obligations.DecodingUndoesEncoding := by
  intro i hwf
  cases hf : i.format with
  | cmd =>
    obtain ⟨op, rfl⟩ := exists_decodeOp_of_format_cmd hf
    rw [encode_eq_lanes (.inl hf), encodeWord_decodeOp, decode_cmd_lanes, decodeCmd, cmdOp_cmdWord]
  | rxd =>
    obtain ⟨nodata, last, data, rfl⟩ := exists_rxdWord_of_format_rxd hf
    rw [encode_eq_lanes (.inr hf), encodeWord_decodeRxd, decode_rxd_lanes, rxdNodataField_rxdWord, rxdLastField_rxdWord,
      rxdDataField_rxdWord]
  | response =>
    obtain ⟨n, rfl⟩ := exists_selectLayout_of_format_response hwf hf
    rw [encode_selectLayout]
    rfl

/-- Settles O10: each sequence is closed, and the decoder is run on it. -/
theorem sampleWordsDecodeAsTheSpecSays : Obligations.SampleWordsDecodeAsTheSpecSays :=
  ⟨rfl, rfl, rfl, rfl, rfl, rfl, rfl, rfl, rfl, rfl⟩

/-- Settles O20: in phase RX the write is delivered. -/
theorem rxdByteAppendsAndNopDoesNothing : Obligations.RxdByteAppendsAndNopDoesNothing := fun _ data hx =>
  ⟨deliver_rx (fun r => .next (r.appendRx data)) hx, deliver_rx (fun r => .next r) hx⟩

end Sys2Proof.Machine
end

section
/-! The request frames: a frame closed by its checksum sums to 0, and the setpoints of an RPM frame are read back. -/

namespace Sys2Proof.Machine

theorem byteSum_closeFrame (body : List Byte) : byteSum (closeFrame body) % 256 = 0 := by
  rw [closeFrame, byteSum_append, byteSum_cons, byteSum_nil, checksum_toNat]
  omega

/-- Settles O53: each frame's constant bytes are read off it, and its sum off its closing checksum. -/
theorem requestFramesAreWellFormed : Obligations.RequestFramesAreWellFormed := by
  refine ⟨by decide, by decide, fun l r f b len hmem => ?_⟩
  simp only [List.mem_cons, List.not_mem_nil, or_false, Prod.mk.injEq] at hmem
  obtain ⟨rfl, rfl, rfl⟩ | ⟨rfl, rfl, rfl⟩ | ⟨rfl, rfl, rfl⟩ := hmem
  all_goals exact ⟨rfl, rfl, rfl, byteSum_closeFrame _⟩

/-- The two bytes of a little-endian 16-bit field, put together again (00_scope.md R11). -/
theorem append_extract_bytes (p : BitVec 16) : p.extractLsb' 8 8 ++ p.extractLsb' 0 8 = p := by
  rw [BitVec.extractLsb'_append_extractLsb'_eq_extractLsb' (by rfl)]
  exact BitVec.extractLsb'_eq_self

theorem le16_rpmFrame_left (l r : Int) : le16 (rpmFrame l r) 6 = BitVec.ofInt 16 l := append_extract_bytes _

theorem le16_rpmFrame_right (l r : Int) : le16 (rpmFrame l r) 9 = BitVec.ofInt 16 r := append_extract_bytes _

theorem toInt_ofInt_of_int16 {v : Int} (hmin : -32768 ≤ v) (hmax : v ≤ 32767) : (BitVec.ofInt 16 v).toInt = v :=
  BitVec.toInt_ofInt_eq_self (by decide) (by omega) (by omega)

/-- Settles O54: each field is its setpoint's 16-bit pattern, and a signed 16-bit number is read back from its own. -/
theorem setpointsSurviveTheWire : Obligations.SetpointsSurviveTheWire := by
  intro l r hlmin hlmax hrmin hrmax
  rw [le16_rpmFrame_left, le16_rpmFrame_right]
  exact ⟨toInt_ofInt_of_int16 hlmin hlmax, toInt_ofInt_of_int16 hrmin hrmax⟩

end Sys2Proof.Machine
end

section
/-! The host's programs: the expansion of a FEED, and the words of RXB and RXL. -/

namespace Sys2Proof.Machine

/-- RXB's word: the byte with LAST and NODATA 0 (30_encoding.md R100). -/
theorem wrReg_rxb (b : Byte) : wrReg .rxd (rxbWord b) = .wr 0x18 (b.setWidth 32) := by
  have hword : immWord (rxbWord b) = b.setWidth 32 := by
    apply BitVec.eq_of_toNat_eq
    simp [immWord, rxbWord]
  rw [wrReg, hword]
  rfl

/-- RXL's word: the byte with LAST 1 (30_encoding.md R100). -/
theorem wrReg_rxl (b : Byte) : wrReg .rxd (rxlWord b) = .wr 0x18 (0x100 ||| b.setWidth 32) := by
  have hword : immWord (rxlWord b) = 0x100 ||| b.setWidth 32 := by
    apply BitVec.eq_of_toNat_eq
    have hsum : 256 + b.toNat = 256 ||| b.toNat := Nat.two_pow_add_eq_or_of_lt (i := 8) b.isLt 1
    have hint : (0x100 + b.toNat : Int) = (256 ||| b.toNat : Nat) := by rw [← hsum]; simp
    simp [immWord, rxlWord, hint]
  rw [wrReg, hword]
  rfl

/-- FEED is an RXB for every byte but the last and an RXL for the last (30_encoding.md R100). -/
theorem feedOps_append_singleton (bs : List Byte) (b : Byte) :
    feedOps (bs ++ [b]) = bs.map (fun c => wrReg .rxd (rxbWord c)) ++ [wrReg .rxd (rxlWord b)] := by
  induction bs with
  | nil => rfl
  | cons c bs ih =>
    have hne : ∃ d ds, bs ++ [b] = d :: ds := by cases bs <;> exact ⟨_, _, rfl⟩
    obtain ⟨d, ds, hds⟩ := hne
    rw [hds] at ih
    simp [hds, feedOps, ih]

theorem assemble_singleton (st : HostStmt) : assemble [st] = expandStmt (fun l => labelPosition l [st]) st :=
  List.flatMap_singleton ..

/-- Settles O59: FEED by the recursion of its expansion, RXB and RXL by their words, the rest by expanding. -/
theorem pseudoInstructionsExpandAsListed : Obligations.PseudoInstructionsExpandAsListed := by
  refine ⟨fun bs b => ?feed, fun b => ⟨?rxb, ?rxl⟩, fun l r => rfl, rfl, rfl, fun k v => rfl⟩
  case feed =>
    rw [assemble_singleton, expandStmt, feedOps_append_singleton, wrReg_rxl]
    simp only [wrReg_rxb]
  case rxb => rw [assemble_singleton, expandStmt, wrReg_rxb]
  case rxl => rw [assemble_singleton, expandStmt, wrReg_rxl]

end Sys2Proof.Machine
end

section
/-! The checksum generator: when the checksum is 0, what the incremental form accumulates, and the opening of CKSUM. -/

namespace Sys2Proof.Machine

/-! ### The value -/

theorem checksum_eq_zero_iff (d : List Byte) : checksum d = 0 ↔ byteSum d % 256 = 0 := by
  have hzero : (0 : Byte).toNat = 0 := rfl
  rw [BitVec.toNat_eq, checksum_toNat, hzero]
  omega

/-- Settles O50: a sequence followed by its checksum is a closed frame, whose sum vanishes. -/
theorem checksumMakesTheSumVanish : Obligations.ChecksumMakesTheSumVanish := by
  intro d
  have hclosed : byteSum (closeFrame d) % 256 = 0 := byteSum_closeFrame d
  refine ⟨?_, (checksum_eq_zero_iff _).mpr hclosed, checksum_eq_zero_iff d⟩
  simpa [closeFrame] using hclosed

/-- Settles O51: the checksum as a number is the sum negated modulo 256. -/
theorem checksumIsTheNegatedSum : Obligations.ChecksumIsTheNegatedSum := by
  refine ⟨fun d => ?_, rfl⟩
  rw [checksum_toNat]
  omega

/-! ### The incremental form -/

/-- The accumulator counts the sum modulo 256, so the incremental checksum is that of the sum (40_checksum.md R113). -/
theorem incrementalChecksum_eq_checksum (d : List Byte) : incrementalChecksum d = checksum d := by
  have hacc : (accumulate 0 d).toNat = byteSum d % 256 := by simp [accumulate_toNat]
  rw [incrementalChecksum, hacc, checksum]

theorem accumulate_append (acc : Byte) (d e : List Byte) :
    accumulate acc (d ++ e) = accumulate (accumulate acc d) e :=
  List.foldl_append

theorem byteSum_eq_of_perm {d e : List Byte} (h : d.Perm e) : byteSum d = byteSum e :=
  (h.map BitVec.toNat).sum_eq

/-- Settles O52: the accumulator is a fold over the bytes, and the checksum depends on their sum alone. -/
theorem incrementalChecksumAgrees : Obligations.IncrementalChecksumAgrees := fun d e =>
  ⟨incrementalChecksum_eq_checksum d, (accumulate_append 0 d e).symm,
    fun h => by rw [checksum, checksum, byteSum_eq_of_perm h]⟩

/-! ### The command -/

/-- In phase IDLE a command starts from the state of its acceptance (30_encoding.md R83). -/
theorem exec_decodeOp_idle (op : Opcode) {s : State} (hi : s.phase = .idle) :
    exec (decodeOp op) s = .next (startCommand op (s.accept op)) := by
  rw [exec_decodeOp, command_idle _ _ hi]

/-- Settles O16: CKSUM is the command of operation code 5, which opens the buffer. -/
theorem cksumOpensAnEmptyBuffer : Obligations.CksumOpensAnEmptyBuffer := fun _ hi => exec_decodeOp_idle 0x5 hi

end Sys2Proof.Machine
end

section
/-! The request framer: what each build command offers after its acceptance, and how a whole frame leaves. -/

namespace Sys2Proof.Machine

variable {s : State}

/-! ### The fixed frames -/

/-- F_EI of 41_framer.md R131, its checksum byte computed. -/
theorem encInitFrame_eq : encInitFrame = [0xB7, 0xB8, 0x01, 0x0A, 0x01, 0x0A, 0x7B] := by decide

/-- F_SP of 41_framer.md R132, its checksum byte computed. -/
theorem statusPollFrame_eq : statusPollFrame = [0xB7, 0xB8, 0x01, 0x04, 0x01, 0xD8, 0xB3] := by decide

/-- Settles O11: ENC_INIT is the command of operation code 1, which offers F_EI. -/
theorem encInitOffersItsFrame : Obligations.EncInitOffersItsFrame := by
  intro s hi
  rw [← encInitFrame_eq]
  exact exec_decodeOp_idle 0x1 hi

/-- Settles O12: STATUS_POLL is the command of operation code 2, which offers F_SP. -/
theorem statusPollOffersItsFrame : Obligations.StatusPollOffersItsFrame := by
  intro s hi
  rw [← statusPollFrame_eq]
  exact exec_decodeOp_idle 0x2 hi

/-! ### The RPM frame -/

theorem rpmOutOfRange_eq_false_iff (v : Int) : rpmOutOfRange v = false ↔ -32768 ≤ v ∧ v ≤ 32767 := by
  simp only [rpmOutOfRange, Bool.not_eq_false', Bool.and_eq_true, decide_eq_true_eq]
  rfl

/-- A register's setpoint is sent as the register's own two low bytes, for the 16-bit pattern of a signed word is its
low half. -/
theorem enc16_setpoint (r : Word) : enc16 (setpoint r) = [r.extractLsb' 0 8, r.extractLsb' 8 8] := by
  have hlow : BitVec.ofInt 16 r.toInt = r.setWidth 16 := BitVec.signExtend_eq_setWidth_of_le r (by decide)
  simp [enc16, setpoint, hlow, BitVec.extractLsb'_setWidth_of_le]

/-- The checksum is the negated sum taken modulo 256, over the integers (40_checksum.md R111). -/
theorem checksum_eq_ofInt_neg (d : List Byte) : checksum d = BitVec.ofInt 8 (-(byteSum d : Int)) := by
  apply BitVec.eq_of_toNat_eq
  rw [checksum_toNat, BitVec.toNat_ofInt]
  omega

/-- Settles O13: in range RPM_SET offers the frame of the two setpoints, whose bytes are the registers' own. -/
theorem rpmSetInRangeOffersItsFrame : Obligations.RpmSetInRangeOffersItsFrame := by
  intro s hi hlmin hlmax hrmin hrmax body
  have hl : rpmOutOfRange (setpoint s.rpmL) = false := (rpmOutOfRange_eq_false_iff _).mpr ⟨hlmin, hlmax⟩
  have hr : rpmOutOfRange (setpoint s.rpmR) = false := (rpmOutOfRange_eq_false_iff _).mpr ⟨hrmin, hrmax⟩
  have hbody : rpmBody (setpoint s.rpmL) (setpoint s.rpmR) = body := by
    rw [rpmBody, enc16_setpoint, enc16_setpoint]
    rfl
  have hstart : (s.accept 0x3).startRpm = (s.accept 0x3).startTx (closeFrame body) := by
    obtain ⟨hout, -⟩ | ⟨-, -, h⟩ := startRpm_cases (s.accept 0x3)
    · simp [hl, hr] at hout
    · rw [h, State.accept_rpmL, State.accept_rpmR, rpmFrame, hbody]
  rw [← checksum_eq_ofInt_neg, ← closeFrame]
  exact (exec_decodeOp_idle 0x3 hi).trans (congrArg _ hstart)

/-- The argument's bit 0 is the test of the left setpoint and its bit 1 that of the right one (41_framer.md R134). -/
theorem rangeArg_eq (l r : Int) :
    rangeArg l r = (if -32768 ≤ l ∧ l ≤ 32767 then 0 else 1) ||| (if -32768 ≤ r ∧ r ≤ 32767 then 0 else 2) := by
  simp only [← rpmOutOfRange_eq_false_iff, rangeArg]
  cases rpmOutOfRange l <;> cases rpmOutOfRange r <;> rfl

/-- Settles O14: out of range RPM_SET has its outcome before any byte is offered. -/
theorem rpmSetOutOfRangeIsRejectedBeforeEncoding : Obligations.RpmSetOutOfRangeIsRejectedBeforeEncoding := by
  intro s hi hout
  simp only [← rpmOutOfRange_eq_false_iff] at hout
  have hstart : (s.accept 0x3).startRpm =
      (s.accept 0x3).raiseError 0x3 .invalidRpmRange (rangeArg s.rpmL.toInt s.rpmR.toInt) := by
    obtain ⟨-, h⟩ | ⟨hl, hr, -⟩ := startRpm_cases (s.accept 0x3)
    · exact h
    · exact absurd ⟨hl, hr⟩ hout
  rw [← rangeArg_eq]
  exact (exec_decodeOp_idle 0x3 hi).trans (congrArg _ hstart)

/-! ### A whole frame -/

/-- `s` after the transport has taken `bytes`, each with its TX_LAST mark, and the schedule left is `sched`. -/
def State.taken (s : State) (bytes : List (Byte × Bool)) (sched : List Agent) : State :=
  { s with txidx := s.txidx + bytes.length,
           env := { s.env with sched := sched, sent := s.env.sent ++ bytes } }

theorem taken_nil (s : State) : s.taken [] s.env.sched = s := by
  simp [State.taken]

/-- One byte taken in a turn, then more of them. -/
theorem taken_takeTurn_emit (s : State) (b : Byte) (l : Bool) (bytes : List (Byte × Bool)) (sched : List Agent) :
    (s.takeTurn.emit b l).taken bytes sched = s.taken ((b, l) :: bytes) sched := by
  simp [State.taken, State.emit, State.takeTurn, Nat.add_assoc, Nat.add_comm 1]

/-- A turn of the transport takes the first byte of those left, and marks it as the last if no other is. -/
theorem step_offering {b : Byte} {left : List Byte} (ha : s.nextAgent = .transport) (hx : s.phase = .tx)
    (hleft : s.txbuf.drop s.txidx = b :: left) :
    step s = .next (if left = [] then (s.takeTurn.emit b true).finish s.lastop (.ok .sent)
      else s.takeTurn.emit b false) := by
  have hbyte : s.txbuf[s.txidx]? = some b := by rw [← List.head?_drop, hleft, List.head?_cons]
  have hlen : s.txidx + 1 = s.txbuf.length ↔ left = [] := by
    have h := congrArg List.length hleft
    rw [List.length_drop, List.length_cons] at h
    rw [← List.length_eq_zero_iff]
    omega
  have htransfer := transfer_of_offered (s := s.takeTurn) hx hbyte
  simp only [State.takeTurn_txidx, State.takeTurn_txbuf, State.takeTurn_lastop, hlen] at htransfer
  rw [step_transport ha, htransfer]

/-- The transport takes the bytes before the last in order, one a turn, and none of them is marked. -/
theorem run_taken_before_last {body : List Byte} {final : Byte} {sched : List Agent} (n : Nat) (hx : s.phase = .tx)
    (hleft : s.txbuf.drop s.txidx = body ++ [final])
    (hsched : s.env.sched = List.replicate body.length .transport ++ sched) :
    Host.Core.run Sys2Proof.core (body.length + n) s =
      Host.Core.run Sys2Proof.core n (s.taken (body.map (·, false)) sched) := by
  induction body generalizing s with
  | nil =>
    have hs : s.env.sched = sched := hsched
    rw [List.map_nil, ← hs, taken_nil, List.length_nil, Nat.zero_add]
  | cons b body ih =>
    have hstep : step s = .next (s.takeTurn.emit b false) := by
      rw [step_offering (nextAgent_cons hsched) hx hleft, if_neg (by simp)]
    have hnext : (s.takeTurn.emit b false).txbuf.drop (s.txidx + 1) = body ++ [final] := by
      rw [State.emit_txbuf, State.takeTurn_txbuf, ← List.tail_drop, hleft]
      rfl
    have hturns : (s.takeTurn.emit b false).env.sched = List.replicate body.length .transport ++ sched := by
      simp [hsched, List.replicate_succ]
    rw [List.length_cons, Nat.add_right_comm, run_succ _ hstep, ih (s := s.takeTurn.emit b false) hx hnext hturns,
      taken_takeTurn_emit, List.map_cons]

/-- A retire of a successful outcome that is neither a PARSE's nor a CKSUM's writes no result. -/
theorem retire_ok_of_no_result {op : Opcode} {x : OkValue} (hf : s.phase = .fin) (hp : s.pend = some ⟨op, .ok x⟩)
    (h4 : op ≠ 0x4) (h5 : op ≠ 0x5) : s.retire = .next s.noError.settle := by
  have hok : s.publishOk op x = some s.noError := by
    unfold State.publishOk
    rw [if_neg h4, if_neg h5]
  simp [State.retire, hf, hp, hok]

/-- The transfer of the last byte ends the operation, and FRAMER's turn after it retires the outcome. -/
theorem run_last_byte {final : Byte} {rest : List Agent} (hx : s.phase = .tx)
    (hleft : s.txbuf.drop s.txidx = [final]) (h4 : s.lastop ≠ 0x4) (h5 : s.lastop ≠ 0x5)
    (hsched : s.env.sched = .transport :: .framer :: rest) :
    Host.Core.run Sys2Proof.core 2 s = .next (s.taken [(final, true)] rest).noError.settle := by
  have hlast : step s = .next ((s.takeTurn.emit final true).finish s.lastop (.ok .sent)) := by
    rw [step_offering (nextAgent_cons hsched) hx hleft, if_pos rfl]
  have hframer : ((s.takeTurn.emit final true).finish s.lastop (.ok .sent)).env.sched = .framer :: rest := by
    simp [hsched]
  have hretire := (step_framer (nextAgent_cons hframer)).trans (retire_ok_of_no_result rfl rfl h4 h5)
  rw [run_succ _ hlast, run_succ _ hretire, run_zero]
  simp [State.taken, State.settle, State.noError, hsched]

/-- Settles O36: the bytes before the last one leave in order, then the last one, and the outcome retires. -/
theorem frameLeavesWholeAndInOrder : Obligations.FrameLeavesWholeAndInOrder := by
  intro s body final rest hx hbuf hidx h4 h5 hsched
  have hleft : s.txbuf.drop s.txidx = body ++ [final] := by rw [hidx, hbuf, List.drop_zero]
  have hturns : s.env.sched = List.replicate body.length .transport ++ .transport :: .framer :: rest := by
    simp [hsched, List.replicate_succ']
  have hfinal : s.txbuf.drop (s.txidx + (body.map (·, false)).length) = [final] := by
    rw [← List.drop_drop, hleft, List.length_map, List.drop_left]
  rw [run_taken_before_last 2 hx hleft hturns]
  exact run_last_byte (s := s.taken _ _) hx hfinal h4 h5 rfl

end Sys2Proof.Machine
end

section
/-!
The RX buffer: its opening, what an RXD word adds to it, the outcome computed at its end, and a whole buffer fed by the
host.
-/

namespace Sys2Proof.Machine

variable {s : State} {v : Word}

/-- Settles O15: PARSE is the command of operation code 4, which opens the buffer. -/
theorem parseOpensAnEmptyBuffer : Obligations.ParseOpensAnEmptyBuffer := fun _ hi => exec_decodeOp_idle 0x4 hi

/-! ### The end of a buffer -/

/-- The outcome that the end of the buffer computes, by what the buffer was collected for (42_demux.md R177). -/
def State.bufferOutcome (s : State) : Pending :=
  if s.rxmode = .parse then { op := 0x4, result := parseResponse s.rxbuf s.vck }
  else { op := 0x5, result := .ok (.checksum (checksum s.rxbuf)) }

/-- The state after the end of the buffer: its outcome pends in phase FIN. -/
def State.ended (s : State) : State := { s with pend := some s.bufferOutcome, phase := .fin }

theorem endBuffer_of_parse (hm : s.rxmode = .parse) : s.endBuffer = runSelector s := by
  simp [State.endBuffer, hm]

theorem endBuffer_rx (hx : s.phase = .rx) : s.endBuffer = .next s.ended := by
  by_cases hm : s.rxmode = .parse
  · rw [endBuffer_of_parse hm, runSelector_open hx hm]
    simp [State.ended, State.bufferOutcome, State.finish, hm]
  · simp [State.endBuffer, State.ended, State.bufferOutcome, State.finish, hm]

theorem exec_rxdLast_rx (data : Byte) (hx : s.phase = .rx) :
    exec (.rxdLast data) s = (s.appendRx data).endBuffer := deliver_rx (fun r => (r.appendRx data).endBuffer) hx

theorem exec_rxdEnd_rx (data : Byte) (hx : s.phase = .rx) : exec (.rxdEnd data) s = s.endBuffer := deliver_rx _ hx

/-- The layout selector runs the row that the buffer decodes to. -/
theorem runSelector_of_decode {i : Instr} (hi : decode .response s.rxbuf = .ok i) : runSelector s = exec i s := by
  unfold decode at hi
  unfold runSelector
  cases hd : declaredLength? s.rxbuf with
  | none => simp [hd] at hi
  | some n =>
    obtain rfl : (selectLayout n).toInstr = i := by simpa [hd] using hi
    cases hs : selectLayout n <;> simp [hs, Selector.toInstr, exec]

/-- Settles O7: the end of a PARSE buffer is the layout selector, which runs the row the buffer decodes to. -/
theorem endOfAParseBufferRunsTheSelectedRow : Obligations.EndOfAParseBufferRunsTheSelectedRow := by
  intro s data i hx hm
  refine ⟨fun hi => ?_, fun hi => ?_⟩
  · rw [exec_rxdLast_rx data hx, endBuffer_of_parse (s := s.appendRx data) hm]
    exact runSelector_of_decode (s := s.appendRx data) hi
  · rw [exec_rxdEnd_rx data hx, endBuffer_of_parse hm, runSelector_of_decode hi]

theorem bufferOutcome_parse (hm : s.rxmode = .parse) : s.bufferOutcome = ⟨0x4, parseResponse s.rxbuf s.vck⟩ :=
  if_pos hm

theorem bufferOutcome_cksum (hm : s.rxmode = .cksum) :
    s.bufferOutcome = ⟨0x5, .ok (.checksum (BitVec.ofInt 8 (-(byteSum s.rxbuf : Int))))⟩ := by
  rw [State.bufferOutcome, if_neg (by simp [hm]), checksum_eq_ofInt_neg]

/-- Settles O21: the outcome pending at the end of a CKSUM buffer is the negated sum of the bytes received. -/
theorem endOfACksumBufferComputesTheChecksum : Obligations.EndOfACksumBufferComputesTheChecksum := by
  intro s data hx hm
  have hlast := bufferOutcome_cksum (s := s.appendRx data) hm
  rw [State.appendRx_rxbuf, byteSum_append, byteSum_cons, byteSum_nil, Nat.add_zero, Nat.cast_add] at hlast
  rw [exec_rxdLast_rx data hx, exec_rxdEnd_rx data hx, endBuffer_rx hx, endBuffer_rx (s := s.appendRx data) hx,
    State.ended, State.ended, hlast, bufferOutcome_cksum hm]
  exact ⟨rfl, rfl⟩

/-- Settles O22: the outcome pending at the end of a PARSE buffer is that of the parse function. -/
theorem endOfAParseBufferComputesTheOutcome : Obligations.EndOfAParseBufferComputesTheOutcome := by
  intro s data hx hm
  rw [exec_rxdLast_rx data hx, exec_rxdEnd_rx data hx, endBuffer_rx hx, endBuffer_rx (s := s.appendRx data) hx,
    State.ended, State.ended, bufferOutcome_parse hm, bufferOutcome_parse (s := s.appendRx data) hm]
  exact ⟨rfl, rfl⟩

/-! ### An RXD word -/

/-- The state with the byte that an RXD word carries, unless it carries none (30_encoding.md R84). -/
def State.receive (s : State) (v : Word) : State :=
  if rxdNodataField v = false then s.appendRx (rxdDataField v) else s

/-- The byte received changes neither what the buffer is collected for nor the latched switch. -/
theorem ended_receive (s : State) (v : Word) :
    (s.receive v).ended =
      { s.receive v with
        pend := some
          (if s.rxmode = .parse then { op := 0x4, result := parseResponse (s.receive v).rxbuf s.vck }
            else { op := 0x5, result := .ok (.checksum (checksum (s.receive v).rxbuf)) }),
        phase := .fin } := by
  unfold State.receive
  split <;> rfl

theorem Received.eq_receive {w : State} (h : Received s v w) : w = s.receive v := by
  cases h with
  | nothing hd => simp [State.receive, hd]
  | byte hd => simp [State.receive, hd]

/-- In phase RX an RXD word delivers its byte, if it carries one, and ends the buffer exactly if LAST is set. -/
theorem exec_decodeRxd_rx (v : Word) (hx : s.phase = .rx) :
    exec (decodeRxd v) s = .next (if rxdLastField v = true then (s.receive v).ended else s.receive v) := by
  obtain ⟨t, ht⟩ := exec_next (decodeRxd v) s
  obtain ⟨w, hw, ⟨hl, rfl⟩ | ⟨hl, hend⟩⟩ := exec_decodeRxd_cases hx ht
  · rw [ht, hw.eq_receive, hl, if_neg Bool.false_ne_true]
  · rw [endBuffer_rx (hw.phase_eq.trans hx)] at hend
    rw [ht, ← hend, hw.eq_receive, if_pos hl]

/-- Settles O23: outside phase RX the word is lost, in it the word's byte is received and LAST ends the buffer. -/
theorem rxdWriteFollowsItsPseudocode : Obligations.RxdWriteFollowsItsPseudocode := by
  intro s v
  have hwrite : s.regWrite 0x18 v = exec (decodeRxd v) s := regWrite_of_decodeWrite (r := .rxd) rfl rfl
  rw [hwrite]
  by_cases hx : s.phase = .rx
  · rw [exec_decodeRxd_rx v hx, if_neg (not_not.mpr hx)]
    rw [apply_ite Host.Outcome.next, ended_receive]
    rfl
  · rw [exec_decodeRxd_elsewhere v hx, if_pos hx]
    rfl

/-! ### A whole buffer -/

/-- `s` after the host has handed over `bytes`, one a turn, and the schedule left is `sched`. -/
def State.fed (s : State) (bytes : List Byte) (sched : List Agent) : State :=
  { s with rxbuf := s.rxbuf ++ bytes,
           env := { s.env with sched := sched, hpc := s.env.hpc + bytes.length } }

/-- One byte handed over, then more of them. -/
theorem fed_fed (s : State) (b : Byte) (bytes : List Byte) (sched sched' : List Agent) :
    (s.fed [b] sched').fed bytes sched = s.fed (b :: bytes) sched := by
  simp [State.fed, Nat.add_assoc, Nat.add_comm 1]

/-- A turn in which the host writes an RXD word that carries a byte. -/
theorem step_rxdWrite {v : Word} {sched : List Agent} {ops : List HostOp} (hx : s.phase = .rx)
    (hsched : s.env.sched = .host :: sched) (hprog : s.env.prog.drop s.env.hpc = .wr 0x18 v :: ops)
    (hdata : rxdNodataField v = false) :
    step s = .next
      (if rxdLastField v = true then (s.fed [rxdDataField v] sched).ended else s.fed [rxdDataField v] sched) := by
  have hop : s.env.prog[s.env.hpc]? = some (.wr 0x18 v) := by rw [← List.head?_drop, hprog, List.head?_cons]
  have hreceive : s.takeTurn.hostNext.receive v = s.fed [rxdDataField v] sched := by
    simp [State.receive, hdata, State.fed, State.appendRx, State.takeTurn, State.hostNext, hsched]
  calc step s = s.takeTurn.hostNext.regWrite 0x18 v := step_hostOp (nextAgent_cons hsched) hop
    _ = exec (decodeRxd v) s.takeTurn.hostNext := regWrite_of_decodeWrite (r := .rxd) rfl rfl
    _ = _ := by rw [exec_decodeRxd_rx v (s := s.takeTurn.hostNext) hx, hreceive]

/-- RXB's word carries its byte and no mark. -/
theorem rxb_fields (b : Byte) : rxdNodataField (b.setWidth 32) = false ∧ rxdLastField (b.setWidth 32) = false ∧
    rxdDataField (b.setWidth 32) = b := by
  revert b
  decide

/-- RXL's word carries its byte and LAST. -/
theorem rxl_fields (b : Byte) : rxdNodataField (0x100 ||| b.setWidth 32) = false ∧
    rxdLastField (0x100 ||| b.setWidth 32) = true ∧ rxdDataField (0x100 ||| b.setWidth 32) = b := by
  revert b
  decide

/-- The host's program hands the bytes over in order, one a turn, and the last write ends the buffer. -/
theorem run_feedOps {d : List Byte} {rest : List Agent} {more : List HostOp} (hd : d ≠ []) (hx : s.phase = .rx)
    (hsched : s.env.sched = List.replicate d.length .host ++ rest)
    (hprog : s.env.prog.drop s.env.hpc = feedOps d ++ more) :
    Host.Core.run Sys2Proof.core d.length s = .next (s.fed d rest).ended := by
  induction d using feedOps.induct generalizing s with
  | case1 => exact absurd rfl hd
  | case2 b =>
    obtain ⟨hdata, hlast, hbyte⟩ := rxl_fields b
    rw [feedOps, wrReg_rxl] at hprog
    have hstep := step_rxdWrite hx hsched hprog hdata
    rw [if_pos hlast, hbyte] at hstep
    exact run_succ 0 hstep
  | case3 b c bytes ih =>
    obtain ⟨hdata, hlast, hbyte⟩ := rxb_fields b
    rw [feedOps, wrReg_rxb] at hprog
    have hnext : step s = .next (s.fed [b] (List.replicate (c :: bytes).length .host ++ rest)) := by
      rw [step_rxdWrite hx hsched hprog hdata, hlast, hbyte]
      rfl
    have hops : s.env.prog.drop (s.env.hpc + 1) = feedOps (c :: bytes) ++ more := by
      rw [← List.tail_drop, hprog]
      rfl
    have hrest := ih (s := s.fed [b] _) (List.cons_ne_nil _ _) hx rfl hops
    rw [fed_fed] at hrest
    exact (run_succ _ hnext).trans hrest

/-- Settles O37: the buffer handed over is the whole sequence, and its outcome is the one computed at its end. -/
theorem feedHandsOverTheWholeBuffer : Obligations.FeedHandsOverTheWholeBuffer := by
  intro s d rest more hd hx hempty hsched hprog
  rw [run_feedOps hd hx hsched hprog, State.ended, State.bufferOutcome, State.fed, hempty]
  rfl

end Sys2Proof.Machine
end

section
/-!
The response layouts: which bytes of a buffer a layout reads, the three outcomes of a selected layout, the response rows
and the receiver with bounded storage.
-/

namespace Sys2Proof.Machine

variable {s : State} {d : List Byte} {vck : Bool} {n : Byte} {need : Nat} {dec : List Byte → Telemetry}

/-! ### The bytes of a buffer -/

theorem payload_length (d : List Byte) : (payload d).length = d.length - 6 := by
  simp only [payload, List.length_dropLast, List.length_drop]
  omega

theorem byteAt_drop (d : List Byte) (k i : Nat) : byteAt (d.drop k) i = byteAt d (k + i) := by
  simp [byteAt, List.getD_eq_getElem?_getD]

theorem byteAt_take {k i : Nat} (h : i < k) : byteAt (d.take k) i = byteAt d i := by
  simp [byteAt, List.getD_eq_getElem?_getD, h]

theorem byteAt_append_left {i : Nat} (e : List Byte) (h : i < d.length) : byteAt (d ++ e) i = byteAt d i := by
  simp [byteAt, List.getD_eq_getElem?_getD, List.getElem?_append_left h]

/-- The payload's bytes are the buffer's from offset 5 on (42_demux.md R163). -/
theorem byteAt_payload {i : Nat} (h : i + 6 < d.length) : byteAt (payload d) i = byteAt (d.drop 5) i := by
  have hi : i < (d.drop 5).length - 1 := by rw [List.length_drop]; omega
  rw [payload, byteAt, byteAt, List.getD_eq_getElem?_getD, List.getD_eq_getElem?_getD, List.getElem?_dropLast,
    if_pos hi]

/-! ### What a layout reads -/

/-- The fields that `dec` decodes stand in the first `need` payload bytes (42_demux.md R174). -/
def ReadsFirst (need : Nat) (dec : List Byte → Telemetry) : Prop :=
  ∀ p q : List Byte, (∀ i < need, byteAt p i = byteAt q i) → dec p = dec q

theorem le16_congr {p q : List Byte} {k : Nat} (h : ∀ i < need, byteAt p i = byteAt q i) (hk : k + 2 ≤ need) :
    le16 p k = le16 q k := by
  rw [le16, le16, h k (by omega), h (k + 1) (by omega)]

theorem le32_congr {p q : List Byte} {k : Nat} (h : ∀ i < need, byteAt p i = byteAt q i) (hk : k + 4 ≤ need) :
    le32 p k = le32 q k := by
  rw [le32, le32, h k (by omega), h (k + 1) (by omega), h (k + 2) (by omega), h (k + 3) (by omega)]

theorem motorRecord_congr {p q : List Byte} {k : Nat} (rotation : BitVec 32 → Bits64)
    (h : ∀ i < need, byteAt p i = byteAt q i) (hk : k + 7 ≤ need) :
    motorRecord rotation p k = motorRecord rotation q k := by
  rw [motorRecord, motorRecord, le16_congr h (by omega), le32_congr h (by omega), h (k + 2) (by omega)]

theorem readsFirst_telemetry14 : ReadsFirst 14 telemetry14 := fun p q h => by
  rw [telemetry14, telemetry14, motorRecord_congr rotation14 h (k := 0) (by decide),
    motorRecord_congr rotation14 h (k := 7) (by decide)]

theorem readsFirst_telemetry16 : ReadsFirst 18 telemetry16 := fun p q h => by
  rw [telemetry16, telemetry16, motorRecord_congr rotation16 h (k := 0) (by decide),
    motorRecord_congr rotation16 h (k := 7) (by decide), le16_congr h (k := 14) (by decide),
    le16_congr h (k := 16) (by decide)]

/-- The declared length `n` selects the layout that needs `need` payload bytes and decodes them by `dec`
(30_encoding.md R94, 42_demux.md R160). -/
inductive LayoutOf : Byte → Nat → (List Byte → Telemetry) → Prop where
  | l14 : LayoutOf 14#8 14 telemetry14
  | l16 : LayoutOf 16#8 18 telemetry16

theorem LayoutOf.readsFirst (h : LayoutOf n need dec) : ReadsFirst need dec := by
  cases h with
  | l14 => exact readsFirst_telemetry14
  | l16 => exact readsFirst_telemetry16

theorem LayoutOf.need_bounds (h : LayoutOf n need dec) : 0 < need ∧ need ≤ 18 := by
  cases h <;> decide

theorem parseResponse_of_layout (h : LayoutOf n need dec) (hn : declaredLength? d = some n) :
    parseResponse d vck = parseLayout need dec d vck := by
  cases h <;> simp only [parseResponse, hn] <;> rfl

/-- A declared length that is no layout (42_demux.md R162). -/
theorem parseResponse_of_no_layout (hn : declaredLength? d = some n) (h14 : n ≠ 14#8) (h16 : n ≠ 16#8) :
    parseResponse d vck = parseUnknown n := by
  simp only [parseResponse, hn, selectLayout_other n h14 h16]

/-! ### The outcomes of a selected layout -/

/-- The last byte is the checksum of those before it exactly when the whole sum vanishes (40_checksum.md R112). -/
theorem lastByte_eq_checksum_iff (hd : d ≠ []) : lastByte d = checksum d.dropLast ↔ byteSum d % 256 = 0 := by
  obtain ⟨body, b, rfl⟩ := List.eq_nil_or_concat' d |>.resolve_left hd
  have hb := b.isLt
  rw [lastByte, List.dropLast_concat, List.getLastD_concat, byteSum_append, byteSum_cons, byteSum_nil, BitVec.toNat_eq,
    checksum_toNat]
  omega

/-- The length check comes first (42_demux.md R164). -/
theorem parseLayout_short (hneed : 0 < need) (hlen : d.length < 6 + need) :
    parseLayout need dec d vck = truncated d.length :=
  if_pos (by rw [payload_length]; omega)

/-- Then the checksum is verified (42_demux.md R165). -/
theorem parseLayout_mismatch (hlen : 6 + need ≤ d.length) (hsum : byteSum d % 256 ≠ 0) :
    parseLayout need dec d true = .err .checksumMismatch (mismatchArg (checksum d.dropLast) (lastByte d)) := by
  have hlong : ¬ (payload d).length < need := by rw [payload_length]; omega
  have hck : lastByte d ≠ checksum d.dropLast :=
    mt (lastByte_eq_checksum_iff (List.length_pos_iff.mp (by omega))).mp hsum
  simp [parseLayout, hlong, hck]

/-- Then the fields are decoded, and they are the buffer's bytes from offset 5 on (42_demux.md R166). -/
theorem parseLayout_ok (hdec : ReadsFirst need dec) (hlen : 6 + need ≤ d.length)
    (hck : vck = false ∨ byteSum d % 256 = 0) : parseLayout need dec d vck = .ok (.telemetry (dec (d.drop 5))) := by
  have hlong : ¬ (payload d).length < need := by rw [payload_length]; omega
  have hfields : dec (payload d) = dec (d.drop 5) := hdec _ _ fun i hi => byteAt_payload (by omega)
  have hpass : ¬ (vck && lastByte d != checksum d.dropLast) = true := by
    obtain rfl | hsum := hck
    · simp
    · simp [(lastByte_eq_checksum_iff (List.length_pos_iff.mp (by omega))).mpr hsum]
  rw [parseLayout, if_neg hlong, if_neg hpass, hfields]

/-! ### The response rows -/

/-- In phase RX of a PARSE the row of a layout ends the operation with that layout's outcome. -/
theorem exec_layoutRow (h : LayoutOf n need dec) (hx : s.phase = .rx) (hm : s.rxmode = .parse) :
    exec (selectLayout n).toInstr s = .next (s.finish 0x4 (parseLayout need dec s.rxbuf s.vck)) := by
  cases h <;> exact congrArg _ (endParse_open _ hx hm)

/-- Settles O24: the payload's fields are read at their frame offsets, 5 past those of the payload. -/
theorem respL14DecodesItsFields : Obligations.RespL14DecodesItsFields := by
  intro s hx hm hlen hck d pos1 pos2
  have hrow := exec_layoutRow .l14 hx hm
  rw [parseLayout_ok readsFirst_telemetry14 hlen hck] at hrow
  refine hrow.trans ?_
  simp only [telemetry14, motorRecord, le16, le32, byteAt_drop]
  rfl

/-- The seven flags stand in the low byte of the I/O word (42_demux.md R169). -/
theorem decodeIoFlags_append (hi lo : Byte) :
    decodeIoFlags (hi ++ lo) =
      { intSpeed := lo.getLsbD 0, alarmReset := lo.getLsbD 1, dir := lo.getLsbD 2, runBrake := lo.getLsbD 3,
        startStop := lo.getLsbD 4, encB := lo.getLsbD 5, encA := lo.getLsbD 6 } := by
  have low {k : Nat} (hk : k < 8) : (hi ++ lo : BitVec 16).getLsbD k = lo.getLsbD k :=
    BitVec.getLsbD_append.trans (if_pos hk)
  simp (disch := decide) only [decodeIoFlags, low]

/-- Settles O25: as for the 14-byte layout, with the two I/O words and the flags of the first one's low byte. -/
theorem respL16DecodesItsFields : Obligations.RespL16DecodesItsFields := by
  intro s hx hm hlen hck d pos1 pos2
  have hrow := exec_layoutRow .l16 hx hm
  rw [parseLayout_ok readsFirst_telemetry16 hlen hck] at hrow
  refine hrow.trans ?_
  simp only [telemetry16, motorRecord, le16, le32, byteAt_drop, decodeIoFlags_append]
  rfl

/-- The two bytes of the argument, put together. -/
theorem mismatchArg_eq (expected received : Byte) : mismatchArg expected received = 0#16 ++ expected ++ received := by
  apply BitVec.eq_of_toNat_eq
  have he := expected.isLt
  have hr := received.isLt
  rw [mismatchArg, BitVec.toNat_append, ← Nat.shiftLeft_add_eq_or_of_lt hr, BitVec.toNat_append]
  simp [Nat.shiftLeft_eq]
  omega

/-- Settles O26: the first two outcomes of a selected layout, for both layouts. -/
theorem responseRowsFailOnShortOrCorruptFrames : Obligations.ResponseRowsFailOnShortOrCorruptFrames := by
  rintro ⟨i, len⟩ hp s hx hm
  obtain ⟨n, need, dec, hlayout, rfl, rfl⟩ :
      ∃ n need dec, LayoutOf n need dec ∧ i = (selectLayout n).toInstr ∧ len = 6 + need := by
    simp only [List.mem_cons, Prod.mk.injEq, List.not_mem_nil, or_false] at hp
    obtain ⟨rfl, rfl⟩ | ⟨rfl, rfl⟩ := hp
    · exact ⟨_, _, _, .l14, rfl, rfl⟩
    · exact ⟨_, _, _, .l16, rfl, rfl⟩
  have hrow := exec_layoutRow hlayout hx hm
  refine ⟨fun hlen => ?_, fun hlen hvck hsum => ?_⟩
  · rw [parseLayout_short hlayout.need_bounds.1 hlen] at hrow
    exact hrow
  · rw [hvck, parseLayout_mismatch hlen hsum, mismatchArg_eq, checksum_eq_ofInt_neg] at hrow
    exact hrow

/-- Settles O27: the row carries the byte that its outcome has as argument. -/
theorem respUnknownCarriesTheDeclaredLength : Obligations.RespUnknownCarriesTheDeclaredLength := by
  intro s n hx hm
  have harg : n.setWidth 32 = 0#24 ++ n := BitVec.setWidth_eq_append (by decide)
  rw [← harg]
  exact congrArg _ (endParse_open (fun _ _ => parseUnknown n) hx hm)

/-- Settles O28: every response row is an end of a PARSE buffer, which is none here. -/
theorem responseRowsOutsideAParseBufferChangeNothing : Obligations.ResponseRowsOutsideAParseBufferChangeNothing := by
  intro i s hi hclosed
  cases i with
  | respL14 => exact congrArg _ (endParse_closed parse14 hclosed)
  | respL16 => exact congrArg _ (endParse_closed parse16 hclosed)
  | respUnknown n => exact congrArg _ (endParse_closed (fun _ _ => parseUnknown n) hclosed)
  | _ => cases hi

/-! ### What the parse function does not read -/

/-- A buffer that is not verified and has a layout's fields between its header and a non-empty rest. -/
theorem parseResponse_unverified {h fields extra : List Byte} (hlayout : LayoutOf n need dec) (hh : h.length = 4)
    (hfields : fields.length = need) (hextra : extra ≠ []) :
    parseResponse (h ++ [n] ++ fields ++ extra) false = .ok (.telemetry (dec fields)) := by
  have hpos := List.length_pos_iff.mpr hextra
  have hn : declaredLength? (h ++ [n] ++ fields ++ extra) = some n := by simp [declaredLength?, hh]
  have hdrop : (h ++ [n] ++ fields ++ extra).drop 5 = fields ++ extra := by
    rw [List.append_assoc, List.drop_left' (by simp [hh])]
  rw [parseResponse_of_layout hlayout hn, parseLayout_ok hlayout.readsFirst (by simp; omega) (.inl rfl), hdrop,
    hlayout.readsFirst _ fields fun i hi => byteAt_append_left extra (hfields ▸ hi)]

/-- Settles O30: both outcomes are the telemetry of the same fields. -/
theorem parseReadsOnlyItsFields : Obligations.ParseReadsOnlyItsFields := by
  intro need n h h' fields extra extra' hn hh hh' hfields hextra hextra'
  obtain ⟨dec, hlayout⟩ : ∃ dec, LayoutOf n need dec := by
    obtain ⟨rfl, rfl⟩ | ⟨rfl, rfl⟩ := hn
    · exact ⟨_, .l14⟩
    · exact ⟨_, .l16⟩
  rw [parseResponse_unverified hlayout hh hfields hextra, parseResponse_unverified hlayout hh' hfields hextra']

/-! ### The receiver with bounded storage -/

/-- What the receiver keeps of a buffer (42_demux.md R179). -/
theorem receive_eq (sat : Nat) (d : List Byte) :
    BoundedRx.receive sat d =
      { count := min d.length sat, head := d.take 23, last := lastByte d, sum := accumulate 0 d } := by
  induction d using List.reverseRecOn with
  | nil => simp [BoundedRx.receive, BoundedRx.empty, lastByte, accumulate]
  | append_singleton d b ih =>
    have hpush : BoundedRx.receive sat (d ++ [b]) = (BoundedRx.receive sat d).push sat b := by
      simp [BoundedRx.receive]
    have hcount : min (min d.length sat + 1) sat = min (d ++ [b]).length sat := by
      rw [List.length_append, List.length_singleton]
      omega
    have hhead : (if (d.take 23).length < 23 then d.take 23 ++ [b] else d.take 23) = (d ++ [b]).take 23 := by
      rw [List.length_take]
      split
      · rw [List.take_of_length_le (by omega), List.take_of_length_le (by simp; omega)]
      · rw [List.take_append_of_le_length (by omega)]
    rw [hpush, ih, BoundedRx.push, hcount, hhead, accumulate_append]
    simp [lastByte, accumulate]

theorem receive_checksum (sat : Nat) (d : List Byte) : (BoundedRx.receive sat d).checksum = checksum d := by
  rw [receive_eq, ← incrementalChecksum_eq_checksum]
  rfl

/-- The running sum vanishes exactly when the sum does modulo 256. -/
theorem accumulate_eq_zero_iff (d : List Byte) : accumulate 0 d = 0 ↔ byteSum d % 256 = 0 := by
  simp [BitVec.toNat_eq, accumulate_toNat]

/-- The checksum of the bytes before the last is the last byte less the running sum (42_demux.md R179). -/
theorem lastByte_sub_accumulate (hd : d ≠ []) : lastByte d - accumulate 0 d = checksum d.dropLast := by
  obtain ⟨body, b, rfl⟩ := List.eq_nil_or_concat' d |>.resolve_left hd
  have hb := b.isLt
  have hzero : (0 : Byte).toNat = 0 := rfl
  apply BitVec.eq_of_toNat_eq
  rw [lastByte, List.dropLast_concat, List.getLastD_concat, checksum_toNat, BitVec.toNat_sub, accumulate_toNat,
    byteSum_append, byteSum_cons, byteSum_nil, hzero]
  omega

/-- The receiver's outcome of a selected layout, whose fields all stand in the bytes kept. -/
theorem receive_parseLayout {sat : Nat} (hsat : 24 ≤ sat) (h : LayoutOf n need dec) (d : List Byte) (vck : Bool) :
    (BoundedRx.receive sat d).parseLayout need dec vck = parseLayout need dec d vck := by
  obtain ⟨hpos, hle⟩ := h.need_bounds
  rw [receive_eq]
  simp only [BoundedRx.parseLayout]
  by_cases hlen : d.length < 6 + need
  · have hcount : min d.length sat = d.length := by omega
    rw [hcount, if_pos hlen, parseLayout_short hpos hlen]
  have hd : d ≠ [] := List.length_pos_iff.mp (by omega)
  have hfields : dec ((d.take 23).drop 5) = dec (d.drop 5) := h.readsFirst _ _ fun i hi => by
    rw [byteAt_drop, byteAt_drop, byteAt_take (by omega)]
  rw [if_neg (by omega), lastByte_sub_accumulate hd, hfields]
  by_cases hck : vck = false ∨ byteSum d % 256 = 0
  · rw [parseLayout_ok h.readsFirst (by omega) hck, if_neg]
    obtain rfl | hsum := hck
    · simp
    · rw [(accumulate_eq_zero_iff d).mpr hsum]
      simp
  · obtain ⟨hvck, hsum⟩ := not_or.mp hck
    obtain rfl : vck = true := by simpa using hvck
    rw [parseLayout_mismatch (by omega) hsum, if_pos]
    simpa using mt (accumulate_eq_zero_iff d).mp hsum

theorem receive_parse {sat : Nat} (hsat : 24 ≤ sat) (d : List Byte) (vck : Bool) :
    (BoundedRx.receive sat d).parse vck = parseResponse d vck := by
  have hcount : (BoundedRx.receive sat d).count = min d.length sat := by rw [receive_eq]
  have hhead : byteAt (BoundedRx.receive sat d).head 4 = byteAt d 4 := by rw [receive_eq, byteAt_take (by decide)]
  rw [BoundedRx.parse, hcount, hhead]
  by_cases hlen : d.length < 5
  · have hn : declaredLength? d = none := List.getElem?_eq_none (by omega)
    have hmin : min d.length sat = d.length := by omega
    simp [parseResponse, hn, hmin, hlen]
  · have hn : declaredLength? d = some (byteAt d 4) := by
      simp [declaredLength?, byteAt, List.getElem?_eq_getElem (by omega : 4 < d.length)]
    rw [if_neg (by omega)]
    by_cases h14 : byteAt d 4 = 14#8
    · rw [h14] at hn ⊢
      rw [selectLayout_14, parseResponse_of_layout .l14 hn]
      exact receive_parseLayout hsat .l14 d vck
    by_cases h16 : byteAt d 4 = 16#8
    · rw [h16] at hn ⊢
      rw [selectLayout_16, parseResponse_of_layout .l16 hn]
      exact receive_parseLayout hsat .l16 d vck
    · rw [selectLayout_other _ h14 h16, parseResponse_of_no_layout hn h14 h16]

/-- Settles O31: what is kept of a buffer is enough for every outcome and for the checksum. -/
theorem boundedReceiverGivesTheSameOutcomes : Obligations.BoundedReceiverGivesTheSameOutcomes :=
  fun sat d vck hsat => ⟨receive_parse hsat d vck, receive_checksum sat d⟩

end Sys2Proof.Machine
end

section
/-! The telemetry registers: what they show of a parse result, and 0 without one. -/

namespace Sys2Proof.Machine

variable {s : State} {t : Telemetry}

/-! ### The flags of an I/O word -/

/-- The flag that stands at a bit of IO1_FLAGS (10_state.md R45). -/
def IoFlags.bit (f : IoFlags) : Nat → Bool
  | 0 => f.intSpeed
  | 1 => f.alarmReset
  | 2 => f.dir
  | 3 => f.runBrake
  | 4 => f.startStop
  | 5 => f.encB
  | 6 => f.encA
  | _ => false

theorem word_getLsbD (f : IoFlags) (i : Nat) : f.word.getLsbD i = f.bit i := by
  rw [IoFlags.word, BitVec.getLsbD_append, BitVec.getLsbD_append, BitVec.getLsbD_append, BitVec.getLsbD_append,
    BitVec.getLsbD_append, BitVec.getLsbD_append, BitVec.getLsbD_append]
  rcases Nat.lt_or_ge i 7 with hi | hi
  · interval_cases i <;> simp [IoFlags.bit]
  · obtain ⟨k, rfl⟩ := Nat.exists_eq_add_of_le' hi
    simp [IoFlags.bit]

theorem bit_decodeIoFlags (w : BitVec 16) (i : Nat) : (decodeIoFlags w).bit i = (decide (i < 7) && w.getLsbD i) := by
  rcases Nat.lt_or_ge i 7 with hi | hi
  · interval_cases i <;> rfl
  · obtain ⟨k, rfl⟩ := Nat.exists_eq_add_of_le' hi
    simp [IoFlags.bit]

/-- Settles O41: the two words agree bit by bit. -/
theorem flagsAreTheLowSevenBits : Obligations.FlagsAreTheLowSevenBits := by
  intro w
  have hmask (i : Nat) : (0x007F#16).getLsbD i = decide (i < 7) := by
    rw [BitVec.getLsbD, BitVec.toNat_ofNat]
    exact Nat.testBit_two_pow_sub_one 7 i
  apply BitVec.eq_of_getLsbD_eq
  intro i hi
  rw [word_getLsbD, bit_decodeIoFlags, BitVec.getLsbD_setWidth, BitVec.getLsbD_and, hmask]
  simp [hi, Bool.and_comm]

/-- The bits of IO1_FLAGS past the flags read 0 (10_state.md R45). -/
theorem word_extract_reserved (f : IoFlags) : f.word.extractLsb' 7 25 = 0 := by
  apply BitVec.eq_of_getLsbD_eq
  intro i hi
  rw [BitVec.getLsbD_extractLsb', word_getLsbD, Nat.add_comm]
  simp [IoFlags.bit]

/-! ### The registers -/

theorem telReg_none (ht : s.tel = none) (f : Telemetry → Word) : s.telReg f = 0 := by
  simp [State.telReg, ht]

theorem telReg_some (ht : s.tel = some t) (f : Telemetry → Word) : s.telReg f = f t := by
  simp [State.telReg, ht]

/-- Every register from M1_RPM on is a telemetry register (20_memory.md R53). -/
theorem exists_telReg {r : Reg} (hr : 0x20 ≤ (regOffset r).toNat) :
    ∃ f, ∀ s : State, s.readReg r = s.telReg f := by
  cases r with
  | cmd | status | errArg | cfg | rpmL | rpmR | rxd | ckRes => exact absurd hr (by decide)
  | _ => exact ⟨_, fun _ => rfl⟩

theorem regRead_of_no_telemetry (ht : s.tel = none) {off : Offset} (hoff : 0x20 ≤ off.toNat) : s.regRead off = 0 := by
  cases hr : regAt off with
  | none => exact regRead_of_reserved hr
  | some r =>
    have hword := regAt_eq_some_iff.mp hr
    obtain ⟨f, hf⟩ := exists_telReg (r := r) (by omega)
    rw [regRead_of_regAt hr, hf, telReg_none ht]

/-- The two halves of a rotation's encoding, put together (10_state.md R46). -/
theorem append_extract_halves (x : Bits64) : x.extractLsb' 32 32 ++ x.extractLsb' 0 32 = x := by
  rw [BitVec.extractLsb'_append_extractLsb'_eq_extractLsb' (by rfl)]
  exact BitVec.extractLsb'_eq_self

theorem statusWord_layout (s : State) : s.statusWord.extractLsb' 8 2 = s.layoutField := by
  obtain ⟨-, -, -, -, -, hlayout, -⟩ := statusWord_fields s
  exact hlayout

/-- Settles O40: each offset reaches its register, which shows its field of the result held. -/
theorem telemetryRegistersShowTheParseResult : Obligations.TelemetryRegistersShowTheParseResult := by
  refine fun s => ⟨fun ht _ => regRead_of_no_telemetry ht, fun t ht => ?_⟩
  have read (f : Telemetry → Word) : s.telReg f = f t := telReg_some ht f
  refine ⟨read _, read _, read _, read _, read _, read _, ?_, ?_, ?_⟩
  · exact (congrArg₂ _ (read _) (read _)).trans (append_extract_halves t.m1.rot)
  · exact (congrArg₂ _ (read _) (read _)).trans (append_extract_halves t.m2.rot)
  · have hio1 : s.regRead 0x38 = t.ioReg fun a _ => a := read _
    have hio2 : s.regRead 0x3C = t.ioReg fun _ b => b := read _
    have hflags : s.regRead 0x40 = t.flagsReg := read _
    rw [hio1, hio2, hflags, statusWord_layout, State.layoutField, ht]
    obtain ⟨layout, m1, m2⟩ := t
    cases layout with
    | l14 => exact ⟨rfl, rfl, rfl, rfl⟩
    | l16 io1 io2 f =>
      have bit (i : Nat) : f.word.getLsbD i = f.bit i := word_getLsbD f i
      exact ⟨rfl, rfl, bit 0, bit 1, bit 2, bit 3, bit 4, bit 5, bit 6, word_extract_reserved f, rfl⟩

end Sys2Proof.Machine
end

section
/-!
The wheel rotations: bounds on a correctly rounded quotient by bounds on the exact one, so that both quotients of a
rotation are normal numbers.
-/

namespace Sys2Proof.Machine.Binary64

variable {neg : Bool} {num den a b : Nat} {x y : Bits64}

/-! ### Bounds on a rounded magnitude -/

/-- Rounding does not go below a power of two. -/
theorem two_pow_le_roundedUnits {j : Nat} (hden : 0 < den) (h : 2 ^ j * den ≤ num * scale) :
    2 ^ j ≤ roundedUnits num den := by
  rcases Nat.lt_or_ge j (quotientShift num den) with hs | hs
  · have hm : 2 ^ 52 ≤ quotientSignificand num den :=
      (le_quotientSignificand num den hden).resolve_left (by omega)
    calc 2 ^ j ≤ 2 ^ quotientShift num den := Nat.pow_le_pow_right two_pos hs.le
      _ ≤ roundedUnits num den := Nat.le_mul_of_pos_left _ (by omega)
  · obtain ⟨i, rfl⟩ := Nat.exists_eq_add_of_le' hs
    have hm : 2 ^ i ≤ quotientSignificand num den := by
      refine le_roundDiv _ _ _ (by positivity) ?_
      rwa [pow_add, mul_assoc, mul_comm (2 ^ quotientShift num den)] at h
    rw [pow_add]
    exact Nat.mul_le_mul_right _ hm

/-- A quotient below a power of two is not shifted past it: 53 bits are left. -/
theorem quotientShift_of_lt_two_pow {k : Nat} (hden : 0 < den) (h : num * scale < 2 ^ k * den) :
    quotientShift num den = 0 ∨ 52 + quotientShift num den < k := by
  rw [← Nat.div_lt_iff_lt_mul hden] at h
  rcases shiftFor_spec (num * scale / den) with ⟨hs, -⟩ | ⟨hle, -⟩
  · exact .inl hs
  · rw [← pow_add] at hle
    exact .inr ((Nat.pow_lt_pow_iff_right (by norm_num)).mp (hle.trans_lt h))

/-- Rounding does not go past a power of two. -/
theorem roundedUnits_le_two_pow {k : Nat} (hden : 0 < den) (h : num * scale < 2 ^ k * den) :
    roundedUnits num den ≤ 2 ^ k := by
  have hs : quotientShift num den ≤ k := by
    have := quotientShift_of_lt_two_pow hden h
    omega
  obtain ⟨i, rfl⟩ := Nat.exists_eq_add_of_le' hs
  have hm : quotientSignificand num den ≤ 2 ^ i := by
    refine roundDiv_le _ _ _ (by positivity) ?_
    rwa [pow_add, mul_assoc, mul_comm (2 ^ quotientShift num den)] at h
  rw [pow_add]
  exact Nat.mul_le_mul_right _ hm

/-! ### Normal numbers -/

/-- `x` is a normal number of magnitude from `2 ^ -a` to `2 ^ b`. -/
structure NormalWithin (a b : Nat) (x : Bits64) : Prop where
  finite : isFinite x = true
  expo_pos : 1 ≤ expo x
  scale_le : scale ≤ 2 ^ a * mag x
  mag_le : mag x ≤ 2 ^ b * scale

theorem NormalWithin.expo_le (h : NormalWithin a b x) : expo x ≤ 2046 := by
  have hne : expo x ≠ 2047 := bne_iff_ne.mp h.finite
  have hlt : expo x < 2 ^ 11 := (x.extractLsb' 52 11).isLt
  omega

/-- A quotient of at most 2^2097 least units rounds to a finite number. -/
theorem isFinite_withSign_roundMag_of_lt {k : Nat} (hden : 0 < den) (h : num * scale < 2 ^ k * den) (hk : k ≤ 2097) :
    isFinite (withSign neg (roundMag num den)) = true := by
  have hshift := quotientShift_of_lt_two_pow hden h
  have hsig := quotientSignificand_le num den hden
  rw [isFinite_withSign_roundMag]
  omega

/-- A finite quotient of at least 2^52 least units has an exponent field that is not 0. -/
theorem expo_pos_of_two_pow_le {j : Nat} (hden : 0 < den) (h : 2 ^ j * den ≤ num * scale) (hj : 52 ≤ j)
    (hfin : isFinite (withSign neg (roundMag num den)) = true) : 1 ≤ expo (withSign neg (roundMag num den)) := by
  have hbelow := (isFinite_withSign_roundMag neg num den).mp hfin
  have hnormal : 2 ^ 52 ≤ quotientShift num den * 2 ^ 52 + quotientSignificand num den := by
    rcases Nat.eq_zero_or_pos (quotientShift num den) with hs | hs
    · have hunits : 2 ^ 52 ≤ roundedUnits num den :=
        (Nat.pow_le_pow_right two_pos hj).trans (two_pow_le_roundedUnits hden h)
      rw [roundedUnits, hs, pow_zero, mul_one] at hunits
      omega
    · omega
  rw [roundMag_of_isFinite hfin, expo_withSign _ _ (by omega)]
  omega

/-- The quotient of magnitudes whose ratio is within `2 ^ -a` and `2 ^ b` rounds to a normal number within the same
bounds, which are far from the exponents' ends. -/
theorem normalWithin_withSign_roundMag (hlow : den ≤ 2 ^ a * num) (hup : num < 2 ^ b * den) (ha : a ≤ 1000)
    (hb : b ≤ 1000) : NormalWithin a b (withSign neg (roundMag num den)) := by
  obtain ⟨p, hp, hscale⟩ := scale_eq_two_pow
  have hden : 0 < den := Nat.pos_of_ne_zero fun h => by simp [h] at hup
  have hlow' : 2 ^ (p - a) * den ≤ num * scale := by
    rw [hscale]
    calc 2 ^ (p - a) * den ≤ 2 ^ (p - a) * (2 ^ a * num) := Nat.mul_le_mul_left _ hlow
      _ = num * 2 ^ (p - a + a) := by rw [pow_add]; ring
      _ = num * 2 ^ p := by rw [Nat.sub_add_cancel (by omega)]
  have hup' : num * scale < 2 ^ (b + p) * den := by
    rw [hscale]
    calc num * 2 ^ p < 2 ^ b * den * 2 ^ p := Nat.mul_lt_mul_of_pos_right hup (by positivity)
      _ = 2 ^ (b + p) * den := by rw [pow_add]; ring
  have hfin := isFinite_withSign_roundMag_of_lt (neg := neg) hden hup' (by omega)
  have hunits := mag_withSign_roundMag hden hfin
  refine ⟨hfin, expo_pos_of_two_pow_le hden hlow' (by omega) hfin, ?_, ?_⟩
  · rw [hunits, hscale]
    calc 2 ^ p = 2 ^ a * 2 ^ (p - a) := by rw [← pow_add, Nat.add_sub_cancel' (by omega)]
      _ ≤ 2 ^ a * roundedUnits num den := Nat.mul_le_mul_left _ (two_pow_le_roundedUnits hden hlow')
  · rw [hunits, hscale, ← pow_add]
    exact roundedUnits_le_two_pow hden hup'

/-- The quotient of finite values whose magnitudes' ratio is within `2 ^ -a` and `2 ^ b`. -/
theorem normalWithin_div (hx : isFinite x = true) (hy : isFinite y = true) (hlow : mag y ≤ 2 ^ a * mag x)
    (hup : mag x < 2 ^ b * mag y) (ha : a ≤ 1000) (hb : b ≤ 1000) : NormalWithin a b (div x y) := by
  have hy0 : mag y ≠ 0 := fun h => by simp [h] at hup
  rw [div_of_isFinite hx hy hy0]
  exact normalWithin_withSign_roundMag hlow hup ha hb

theorem sign_div (hx : isFinite x = true) (hy : isFinite y = true) (hy0 : mag y ≠ 0) :
    sign (div x y) = (sign x ^^ sign y) := by
  rw [div_of_isFinite hx hy hy0, sign_withSign]

@[simp] theorem sign_ofInt (n : Int) : sign (ofInt n) = decide (n < 0) := sign_withSign _ _

end Sys2Proof.Machine.Binary64
end

section
/-! The wheel rotations of the two layouts: formulas, rounding and range (42_demux.md R170 to R172). -/

namespace Sys2Proof.Machine

open Binary64

variable {pos : BitVec 32}

/-! ### The operands -/

theorem natAbs_toInt_le (pos : BitVec 32) : pos.toInt.natAbs ≤ 2 ^ 31 := by
  have hlow := BitVec.le_toInt pos
  have hup := BitVec.toInt_lt (x := pos)
  omega

theorem natAbs_toInt_pos (hpos : pos ≠ 0) : 0 < pos.toInt.natAbs := by
  exact Int.natAbs_pos.mpr fun h => hpos (BitVec.eq_of_toInt_eq (h.trans BitVec.toInt_zero.symm))

theorem position_finite (pos : BitVec 32) :
    isFinite (ofInt pos.toInt) = true ∧ mag (ofInt pos.toInt) = pos.toInt.natAbs * scale :=
  isFinite_mag_ofInt ((natAbs_toInt_le pos).trans (by norm_num))

theorem encCounts64_finite : isFinite encCounts64 = true ∧ mag encCounts64 = 6535 * scale :=
  isFinite_mag_ofInt (by decide)

theorem gearRatio64_finite : isFinite gearRatio64 = true ∧ mag gearRatio64 = 100 * scale :=
  isFinite_mag_ofInt (by decide)

theorem scale_pos_nat : 0 < scale := by exact_mod_cast scale_pos

/-! ### Range and sign -/

/-- A position other than 0 gives a quotient of at least 1/6535, which is above 2^-13, and below 2^20. -/
theorem normalWithin_rotation16 (hpos : pos ≠ 0) : NormalWithin 13 20 (rotation16 pos) := by
  obtain ⟨hfin, hmag⟩ := position_finite pos
  obtain ⟨hefin, hemag⟩ := encCounts64_finite
  have h0 := natAbs_toInt_pos hpos
  have hle := natAbs_toInt_le pos
  have hs := scale_pos_nat
  refine normalWithin_div hfin hefin ?_ ?_ (by decide) (by decide)
  · rw [hmag, hemag, ← mul_assoc]
    exact Nat.mul_le_mul_right _ (by omega)
  · rw [hmag, hemag, ← mul_assoc]
    exact Nat.mul_lt_mul_of_pos_right (by omega) hs

/-- A hundredth of that is still at least 2^-20. -/
theorem normalWithin_rotation14 (hpos : pos ≠ 0) : NormalWithin 20 20 (rotation14 pos) := by
  obtain ⟨hfin, hmag⟩ := gearRatio64_finite
  have h16 := normalWithin_rotation16 hpos
  have hlow := h16.scale_le
  have hup := h16.mag_le
  have hs := scale_pos_nat
  exact normalWithin_div h16.finite hfin (by omega) (by omega) (by decide) (by decide)

theorem rotation16_zero : rotation16 0 = 0 := by decide +kernel

theorem rotation14_zero : rotation14 0 = 0 := by decide +kernel

theorem isFinite_rotation16 (pos : BitVec 32) : isFinite (rotation16 pos) = true := by
  by_cases hpos : pos = 0
  · rw [hpos, rotation16_zero]
    decide
  · exact (normalWithin_rotation16 hpos).finite

theorem isFinite_rotation14 (pos : BitVec 32) : isFinite (rotation14 pos) = true := by
  by_cases hpos : pos = 0
  · rw [hpos, rotation14_zero]
    decide
  · exact (normalWithin_rotation14 hpos).finite

theorem mag_encCounts64_ne_zero : mag encCounts64 ≠ 0 := by
  rw [encCounts64_finite.2]
  exact (Nat.mul_pos (by decide) scale_pos_nat).ne'

theorem mag_gearRatio64_ne_zero : mag gearRatio64 ≠ 0 := by
  rw [gearRatio64_finite.2]
  exact (Nat.mul_pos (by decide) scale_pos_nat).ne'

/-- The divisors are positive, so a rotation has the sign of its position (42_demux.md R172). -/
theorem sign_rotation16 (pos : BitVec 32) : sign (rotation16 pos) = decide (pos.toInt < 0) := by
  rw [rotation16, sign_div (position_finite pos).1 encCounts64_finite.1 mag_encCounts64_ne_zero, sign_ofInt,
    encCounts64, sign_ofInt]
  exact Bool.xor_false _

theorem sign_rotation14 (pos : BitVec 32) : sign (rotation14 pos) = decide (pos.toInt < 0) := by
  rw [rotation14, sign_div (isFinite_rotation16 pos) gearRatio64_finite.1 mag_gearRatio64_ne_zero, sign_rotation16,
    gearRatio64, sign_ofInt]
  exact Bool.xor_false _

/-! ### Rounding -/

/-- The 16-byte layout's one division rounds position/6535 (42_demux.md R171). -/
theorem nearestEven_rotation16 (pos : BitVec 32) : NearestEven (rotation16 pos) ((pos.toInt : ℚ) / 6535) := by
  have h := nearestEven_div (position_finite pos).1 encCounts64_finite.1 mag_encCounts64_ne_zero
    (isFinite_rotation16 pos)
  rw [value_ofInt ((natAbs_toInt_le pos).trans (by norm_num)), encCounts64, value_ofInt (by decide)] at h
  exact_mod_cast h

/-- The 14-byte layout's second division rounds a hundredth of the first one's result (42_demux.md R170). -/
theorem nearestEven_rotation14 (pos : BitVec 32) : NearestEven (rotation14 pos) (value (rotation16 pos) / 100) := by
  have h := nearestEven_div (isFinite_rotation16 pos) gearRatio64_finite.1 mag_gearRatio64_ne_zero
    (isFinite_rotation14 pos)
  rw [gearRatio64, value_ofInt (by decide)] at h
  exact_mod_cast h

/-! ### The obligations -/

/-- Settles O57: the formulas are the definitions; each quotient is finite, so it is correctly rounded, and away from
position 0 its exact value is far from the ends of the normal range. -/
theorem rotationsAreNormalNumbers : Obligations.RotationsAreNormalNumbers := by
  refine ⟨rotation14_zero, rotation16_zero,
    fun pos => ⟨rfl, rfl, nearestEven_rotation16 pos, nearestEven_rotation14 pos⟩, fun pos x hpos hx => ?_⟩
  obtain rfl | rfl := hx
  · have h := normalWithin_rotation14 hpos
    exact ⟨h.expo_pos, h.expo_le, sign_rotation14 pos⟩
  · have h := normalWithin_rotation16 hpos
    exact ⟨h.expo_pos, h.expo_le, sign_rotation16 pos⟩

/-- Settles O58: the two encodings are computed. -/
theorem twoRoundingsAreNotOne : Obligations.TwoRoundingsAreNotOne := by
  unfold Obligations.TwoRoundingsAreNotOne
  decide +kernel

end Sys2Proof.Machine
end

section
/-!
Exceptions: no step of a state that meets the invariant stops the machine, what each kind of rejected write does, the
order of a parse's errors, and what the host reads after an error.
-/

namespace Sys2Proof.Machine

variable {s u : State} {op : Opcode} {d : List Byte} {n : Byte}

/-! ### No run is stopped -/

/-- In phase TX there is a byte to offer, so a transfer takes it; elsewhere a transfer is no step. -/
theorem State.Inv.transfer_next (h : s.Inv) : ∃ t, s.transfer = .next t := by
  by_cases hx : s.phase = .tx
  · obtain ⟨hroom, -⟩ := h.tx_frame hx
    exact ⟨_, transfer_of_offered hx (List.getElem?_eq_getElem hroom)⟩
  · exact ⟨s, transfer_elsewhere hx⟩

/-- A legal outcome carries the value of its operation's kind, so it can be published. -/
theorem publishOk_of_legal {x : OkValue} (h : Pending.Legal ⟨op, .ok x⟩) (s : State) :
    ∃ u, s.publishOk op x = some u := by
  cases x with
  | sent => obtain rfl | rfl | rfl : op = 0x1 ∨ op = 0x2 ∨ op = 0x3 := h <;> exact ⟨s.noError, rfl⟩
  | telemetry r =>
    obtain ⟨rfl, -⟩ : op = 0x4 ∧ r.FlagsAgree := h
    exact ⟨s.noError.setTel r, rfl⟩
  | checksum ck =>
    obtain rfl : op = 0x5 := h
    exact ⟨s.noError.setCkres ck, rfl⟩

/-- The retire step of an error records it, whatever its operation (60_exceptions.md R205). -/
theorem retire_of_err {code : ErrCode} {arg : Word} (hf : s.phase = .fin)
    (hp : s.pend = some { op := op, result := .err code arg }) :
    s.retire = .next (s.recordError code arg).settle := by
  simp [State.retire, hf, hp]

/-- The retire step of a successful outcome publishes its value (70_reset_and_hazards.md R242). -/
theorem retire_of_ok {x : OkValue} (hf : s.phase = .fin) (hp : s.pend = some { op := op, result := .ok x })
    (hu : s.publishOk op x = some u) : s.retire = .next u.settle := by
  simp [State.retire, hf, hp, hu]

/-- In phase FIN there is a legal outcome, so the retire step publishes it; elsewhere it is no step. -/
theorem State.Inv.retire_next (h : s.Inv) : ∃ t, s.retire = .next t := by
  by_cases hf : s.phase = .fin
  · obtain ⟨⟨op, result⟩, hp⟩ := Option.isSome_iff_exists.mp (h.pend_iff_fin.mpr hf)
    cases result with
    | err code arg => exact ⟨_, retire_of_err hf hp⟩
    | ok x =>
      obtain ⟨-, hlegal⟩ := h.pend_legal _ hp
      obtain ⟨u, hu⟩ := publishOk_of_legal hlegal s
      exact ⟨u.settle, retire_of_ok hf hp hu⟩
  · exact ⟨s, if_neg hf⟩

/-- Every agent's step answers a next state (60_exceptions.md R215). -/
theorem State.Inv.step_next (h : s.Inv) : ∃ t, step s = .next t := by
  cases ha : s.nextAgent with
  | host => rw [step_host ha]; exact hostMove_next _
  | transport => rw [step_transport ha]; exact h.takeTurn.transfer_next
  | framer => rw [step_framer ha]; exact h.takeTurn.retire_next
  | environment => exact ⟨_, step_environment ha⟩

/-- Settles O5, by induction on the number of steps: the first one answers a state that meets the invariant. -/
theorem noRunIsEverStopped : Obligations.NoRunIsEverStopped := by
  intro n
  induction n with
  | zero => exact fun s h => ⟨s, run_zero s, h⟩
  | succ n ih =>
    intro s h
    obtain ⟨t, hstep⟩ := h.step_next
    rw [run_succ n hstep]
    exact ih t (everyStepKeepsTheInvariant s t h hstep)

/-! ### The order of a parse's errors -/

/-- A buffer without a declared-length byte (42_demux.md R161). -/
theorem parseResponse_of_no_length (vck : Bool) (hlen : d.length < 5) : parseResponse d vck = truncated d.length := by
  have hn : declaredLength? d = none := List.getElem?_eq_none (by omega)
  simp only [parseResponse, hn]

/-- The two declared lengths that are layouts, each with its need (30_encoding.md R94). -/
theorem exists_layoutOf {need : Nat} (h : (n = 14#8 ∧ need = 14) ∨ (n = 16#8 ∧ need = 18)) :
    ∃ dec, LayoutOf n need dec := by
  obtain ⟨rfl, rfl⟩ | ⟨rfl, rfl⟩ := h
  · exact ⟨_, .l14⟩
  · exact ⟨_, .l16⟩

/-- Settles O29: the parse function makes its tests in the order of the rule, and each outcome is that of the first
test that fails. -/
theorem parseReportsTheFirstErrorThatApplies : Obligations.ParseReportsTheFirstErrorThatApplies := by
  intro d vck
  refine ⟨parseResponse_of_no_length vck, fun n hn => ⟨parseResponse_of_no_layout hn, fun need hneed => ?_⟩⟩
  obtain ⟨dec, hlayout⟩ := exists_layoutOf hneed
  rw [parseResponse_of_layout hlayout hn]
  refine ⟨parseLayout_short hlayout.need_bounds.1, fun hlen hvck hsum => ?_, fun hlen hck => ?_⟩
  · rw [hvck]
    exact parseLayout_mismatch hlen hsum
  · exact ⟨_, parseLayout_ok hlayout.readsFirst hlen hck⟩

/-! ### What the host reads after an error -/

/-- Bits 2:0 of STATUS are ERR, DONE and BUSY (10_state.md R31). -/
theorem statusWord_low_toNat (s : State) :
    (s.statusWord.extractLsb' 0 3).toNat = s.busy.toNat + 2 * s.done.toNat + 4 * s.err.toNat := by
  have hbusy := s.busy.toNat_lt
  have hdone := s.done.toNat_lt
  have herr := s.err.toNat_lt
  rw [BitVec.extractLsb'_toNat, Nat.shiftRight_zero, statusWord_toNat]
  omega

/-- The offsets from CKRES on read 0 where neither a checksum nor a parse result is held. -/
theorem regRead_of_no_result {off : Offset} (hck : s.ckres = 0) (htel : s.tel = none) (hoff : 0x1C ≤ off.toNat) :
    s.regRead off = 0 := by
  by_cases htelemetry : 0x20 ≤ off.toNat
  · exact regRead_of_no_telemetry htel htelemetry
  · have hword : 4 * (off.toNat / 4) = (regOffset .ckRes).toNat := by
      have : (regOffset .ckRes).toNat = 0x1C := rfl
      omega
    rw [regRead_of_regAt (regAt_eq_some_iff.mpr hword), State.readReg, hck]
    rfl

/-- Settles O33: no result could be read before the error, and its retire step writes none. -/
theorem errorsReadBackWithTheirNumbers : Obligations.ErrorsReadBackWithTheirNumbers := by
  intro s t op code arg h hf hp hretire
  obtain rfl : (s.recordError code arg).settle = t :=
    Host.Outcome.next.inj ((retire_of_err hf hp).symm.trans hretire)
  obtain ⟨-, -, -, -, hck, htel⟩ := h.blank (by simp [hf])
  obtain ⟨hop, -⟩ := h.pend_legal _ hp
  obtain ⟨-, -, -, -, hcode, hlayout, -, hlastop, -⟩ := statusWord_fields (s.recordError code arg).settle
  refine ⟨BitVec.eq_of_toNat_eq (statusWord_low_toNat _), ?_, ?_, hlastop.trans hop.symm, rfl,
    fun off => regRead_of_no_result hck htel⟩
  · rw [hcode]
    cases code <;> rfl
  · rw [hlayout, layoutField_eq]
    simp [htel]

/-! ### Reserved commands -/

/-- What a reserved operation code does after its acceptance (60_exceptions.md R203). -/
theorem startCommand_of_reserved (hop : op = 0x0 ∨ 0x6 ≤ op) (s : State) :
    startCommand op s = s.raiseError op .illegalCommand (op.setWidth 32) := by
  have hn : op.toNat = 0 ∨ 6 ≤ op.toNat := by simpa [BitVec.le_def, BitVec.toNat_eq] using hop
  unfold startCommand
  split
  case h_6 => rfl
  all_goals omega

/-- Settles O17: the eleven instructions are the decodings of the reserved codes. -/
theorem reservedCommandsAreIllegal : Obligations.ReservedCommandsAreIllegal := by
  intro p hp s hi
  obtain ⟨hdecode, hreserved⟩ : p.1 = decodeOp p.2 ∧ (p.2 = 0x0 ∨ 0x6 ≤ p.2) := by
    revert p
    decide
  rw [hdecode, exec_decodeOp_idle _ hi, startCommand_of_reserved hreserved]
  rfl

/-! ### Writes that are lost -/

/-- Settles O18: every CMD instruction is a command, and a busy sequencer ignores it. -/
theorem commandsWhileBusyOnlySetIgn : Obligations.CommandsWhileBusyOnlySetIgn := by
  intro s hbusy
  have lost (i : Instr) (hi : i.format = .cmd) : exec i s = .next s.setIgn := by
    obtain ⟨op, rfl⟩ := exists_decodeOp_of_format_cmd hi
    rw [exec_decodeOp, command_busy _ _ hbusy]
  refine ⟨lost, fun off v hr => ?_⟩
  rw [regWrite_of_decodeWrite hr rfl]
  exact lost _ (format_decodeCmd v)

/-- Settles O19: every RXD instruction is the decoding of an RXD word, and outside phase RX the word is ignored. -/
theorem rxdWritesOutsideRxOnlySetIgn : Obligations.RxdWritesOutsideRxOnlySetIgn := by
  intro s hx
  refine ⟨fun i hi => ?_, fun off v hr => ?_⟩
  · obtain ⟨nodata, last, data, rfl⟩ := exists_rxdWord_of_format_rxd hi
    exact exec_decodeRxd_elsewhere _ hx
  · rw [regWrite_of_decodeWrite hr rfl]
    exact exec_decodeRxd_elsewhere v hx

end Sys2Proof.Machine
end

section
/-!
Reset and hazards: the reset step, the retire step and what it publishes, what the host reads of an operation still in
progress, and what can happen to an open buffer.
-/

namespace Sys2Proof.Machine

variable {s t w : State} {v : Word}

/-! ### Reset -/

/-- Settles O2: in every phase the turn is taken and FRAMER reset. -/
theorem resetStepClearsEveryPhase : Obligations.ResetStepClearsEveryPhase := fun _ => step_environment

/-! ### Retiring -/

theorem retire_elsewhere (hf : s.phase ≠ .fin) : s.retire = .next s := if_neg hf

/-- Only PARSE and CKSUM have a value to publish (70_reset_and_hazards.md R242). -/
theorem publishOk_of_no_value {op : Opcode} (x : OkValue) (h4 : op ≠ 0x4) (h5 : op ≠ 0x5) :
    s.publishOk op x = some s.noError :=
  (if_neg h4).trans (if_neg h5)

/-- Settles O32: each kind of outcome is published by its own operation, and then the sequencer settles. -/
theorem retirePublishesTheOutcome : Obligations.RetirePublishesTheOutcome := by
  refine fun s => ⟨retire_elsewhere, fun op r hf hp => ⟨?err, ?none, ?telemetry, ?checksum⟩⟩
  case err =>
    rintro code arg rfl
    exact retire_of_err hf hp
  case none =>
    rintro x rfl h4 h5
    exact retire_of_ok hf hp (publishOk_of_no_value x h4 h5)
  case telemetry =>
    rintro r rfl rfl
    exact retire_of_ok (u := s.noError.setTel r) hf hp rfl
  case checksum =>
    rintro ck rfl rfl
    exact retire_of_ok (u := s.noError.setCkres ck) hf hp rfl

/-! ### An operation in progress -/

/-- The bits 9:4 of STATUS are LAYOUT and ERRCODE (10_state.md R31). -/
theorem statusWord_error_layout_toNat (s : State) :
    (s.statusWord.extractLsb' 4 6).toNat = s.errcode.toNat + 16 * s.layoutField.toNat := by
  have hbusy := s.busy.toNat_lt
  have hdone := s.done.toNat_lt
  have herr := s.err.toNat_lt
  have hign := s.ign.toNat_lt
  have hcode := s.errcode.isLt
  have hlayout := s.layoutField.isLt
  rw [BitVec.extractLsb'_toNat, Nat.shiftRight_eq_div_pow, statusWord_toNat]
  omega

/-- A blank state reads 0 at ERRARG and from CKRES on (70_reset_and_hazards.md R238). -/
theorem State.Blank.regRead_eq_zero (h : s.Blank) {off : Offset}
    (hoff : off.toNat / 4 = 2 ∨ 7 ≤ off.toNat / 4) : s.regRead off = 0 := by
  obtain ⟨-, -, -, harg, hck, htel⟩ := h
  obtain hoff | hoff := hoff
  · have hword : 4 * (off.toNat / 4) = (regOffset .errArg).toNat := congrArg (4 * ·) hoff
    rw [regRead_of_regAt (regAt_eq_some_iff.mpr hword), State.readReg, harg]
  · exact regRead_of_no_result hck htel (show 0x1C ≤ off.toNat by omega)

/-- Settles O45: a busy state that meets the invariant is blank. -/
theorem resultsReadZeroUntilRetire : Obligations.ResultsReadZeroUntilRetire := by
  intro s h hbusy
  obtain ⟨hdone, herr, hcode, -, -, htel⟩ := h.blank hbusy
  have hb : s.busy = true := by rw [busy_eq_decide, decide_eq_true hbusy]
  have hlayout : s.layoutField = 0 := by rw [State.layoutField, htel]
  refine ⟨fun off => (h.blank hbusy).regRead_eq_zero, BitVec.eq_of_toNat_eq ?_, BitVec.eq_of_toNat_eq ?_⟩
  · rw [statusWord_low_toNat, hb, hdone, herr]
    rfl
  · rw [statusWord_error_layout_toNat, hcode, hlayout]
    rfl

/-! ### An open buffer -/

/-- `t` has the buffer of `s`, in the same phase, for the same operation and with the same latched switch. -/
structure State.SameBuffer (s t : State) : Prop where
  phase_eq : t.phase = s.phase
  rxmode_eq : t.rxmode = s.rxmode
  vck_eq : t.vck = s.vck
  rxbuf_eq : t.rxbuf = s.rxbuf

theorem sameBuffer_writePlain (s : State) (r : Reg) (v : Word) : s.SameBuffer (s.writePlain r v) := by
  obtain h | ⟨-, h⟩ | h | h | h := writePlain_cases s r v <;> constructor <;> simp [h]

/-- A word without LAST is an RXD_NOP or an RXD_BYTE (30_encoding.md R85). -/
theorem Received.of_not_last (h : Received s v w) (hl : rxdLastField v = false) :
    w = s ∨ ∃ b, decodeRxd v = .rxdByte b ∧ w = s.appendRx b := by
  cases h with
  | nothing => exact .inl rfl
  | byte hd => exact .inr ⟨_, by rw [decodeRxd, hd, hl], rfl⟩

/-- A word with LAST is an RXD_END or an RXD_LAST (30_encoding.md R85). -/
theorem Received.of_last (h : Received s v w) (hl : rxdLastField v = true) :
    ∃ b, (decodeRxd v = .rxdLast b ∧ w.rxbuf = s.rxbuf ++ [b]) ∨ (decodeRxd v = .rxdEnd b ∧ w.rxbuf = s.rxbuf) := by
  cases h with
  | nothing hd => exact ⟨_, .inr ⟨by rw [decodeRxd, hd, hl], rfl⟩⟩
  | byte hd => exact ⟨_, .inl ⟨by rw [decodeRxd, hd, hl], rfl⟩⟩

/-- What a step does to the open buffer of `s`, by the instruction it runs, if it runs one
(70_reset_and_hazards.md R247 (a)). -/
inductive BufferEffect (s : State) (i : Option Instr) (t : State) : Prop where
  | kept (h : s.SameBuffer t)
  | grew {b : Byte} (hi : i = some (.rxdByte b)) (h : (s.appendRx b).SameBuffer t)
  | ended {b : Byte} (hf : t.phase = .fin)
      (h : (i = some (.rxdLast b) ∧ t.rxbuf = s.rxbuf ++ [b]) ∨ (i = some (.rxdEnd b) ∧ t.rxbuf = s.rxbuf))

/-- A word with LAST ends the buffer that has received its byte, whatever the outcome then computed. -/
theorem Received.bufferEffect_finish (h : Received s v w) (hl : rxdLastField v = true) (op : Opcode) (r : Result) :
    BufferEffect s (some (decodeRxd v)) (w.finish op r) := by
  obtain ⟨b, h⟩ := h.of_last hl
  exact .ended (b := b) rfl (by simpa using h)

/-- In phase RX only a write that reaches RXD touches the buffer. -/
theorem WriteEffect.bufferEffect {off : Offset} (h : WriteEffect s off v t) (hx : s.phase = .rx) :
    BufferEffect s ((regAt off).bind fun r => decodeWrite r v) t := by
  cases h with
  | reserved | lostCommand | lostByte => exact .kept ⟨rfl, rfl, rfl, rfl⟩
  | plain r => exact .kept (sameBuffer_writePlain s r v)
  | accepted _ hi => simp [hx] at hi
  | received hr _ hl hw =>
    obtain rfl | ⟨b, hi, rfl⟩ := hw.of_not_last hl
    · exact .kept ⟨rfl, rfl, rfl, rfl⟩
    · exact .grew (by rw [hr, ← hi]; rfl) ⟨rfl, rfl, rfl, rfl⟩
  | endedParse hr _ hl hw => rw [hr]; exact hw.bufferEffect_finish hl _ _
  | endedCksum hr _ hl hw => rw [hr]; exact hw.bufferEffect_finish hl _ _

/-- The instruction fetched for the host's write is the one that its offset and its word give. -/
theorem fetched_of_wr {off : Offset} (ha : s.nextAgent = .host) (hp : s.env.prog[s.env.hpc]? = some (.wr off v)) :
    s.fetched = (regAt off).bind fun r => decodeWrite r v := by
  cases hr : regAt off with
  | none => simp [State.fetched, ha, hp, hr]
  | some r => exact fetched_of_write ha hp hr

/-- Whose turn it is and where the host's program stands do not touch the buffer. -/
theorem BufferEffect.of_takeTurn_hostNext {i : Option Instr} (h : BufferEffect s.takeTurn.hostNext i t) :
    BufferEffect s i t := by
  cases h with
  | kept h => exact .kept ⟨h.phase_eq, h.rxmode_eq, h.vck_eq, h.rxbuf_eq⟩
  | grew hi h => exact .grew hi ⟨h.phase_eq, h.rxmode_eq, h.vck_eq, h.rxbuf_eq⟩
  | ended hf h => exact .ended hf h

/-- In phase RX only the host's writes and the reset touch the buffer. -/
theorem TurnEffect.bufferEffect (h : TurnEffect s t) (hx : s.phase = .rx) (ha : s.nextAgent ≠ .environment) :
    BufferEffect s s.fetched t := by
  cases h with
  | reset hn => exact absurd hn ha
  | hostDone | read | noTransfer | noRetire => exact .kept ⟨rfl, rfl, rfl, rfl⟩
  | write hn hp hw =>
    rw [fetched_of_wr hn hp]
    exact (hw.bufferEffect hx).of_takeTurn_hostNext
  | tookByte _ htx | tookLastByte _ htx => simp [hx] at htx
  | retiredError _ hf | retiredTelemetry _ hf | retiredChecksum _ hf | retiredSent _ hf => simp [hx] at hf

/-- Settles O38: the three effects that a step can have on an open buffer. -/
theorem openBufferEndsOnlyByALastWrite : Obligations.OpenBufferEndsOnlyByALastWrite := by
  intro s t hx ha hstep
  cases (turnEffect_of_step hstep).bufferEffect hx ha with
  | kept h => exact .inl ⟨h.phase_eq.trans hx, h.rxmode_eq, h.vck_eq, .inl h.rxbuf_eq⟩
  | grew hi h => exact .inl ⟨h.phase_eq.trans hx, h.rxmode_eq, h.vck_eq, .inr ⟨_, hi, h.rxbuf_eq⟩⟩
  | ended hf h => exact .inr ⟨hf, _, h⟩

end Sys2Proof.Machine
end
